-- ==== Sys2Proof/Word.lean ====
section
/-! DEFINITION. The word types of the model (10_state.md R20, R22, R24; 20_memory.md R50). Bit 0 is the
least significant bit everywhere (R9), and arithmetic on these types wraps, as R9 says. -/

namespace Sys2Proof

/-- One byte: a general register, an I/O register, a cell of data memory or of the EEPROM (R20, R61). -/
abbrev Byte := BitVec 8

/-- Sixteen bits: an instruction word (R81), a data address (R50), a pointer register (R22). -/
abbrev Word := BitVec 16

/-- The number of a general register, R0..R31 (R20). -/
abbrev Reg := BitVec 5

/-- An I/O address, 0..63 (R11, R50). -/
abbrev IoAddr := BitVec 6

/-- The number of a bit in a byte, the operands b and s (R11). -/
abbrev BitNum := BitVec 3

/-- The displacement q of LDD and STD, 0..63 (R11). -/
abbrev Disp := BitVec 6

end Sys2Proof
end

