-- ==== Sys2Proof/Machine/Bits.lean ====
section
/-! DEFINITION. Bytes of words and bit fields, in the notation of 00_scope.md R9. -/

namespace Sys2Proof

/-- `w[7:0]` (R9). -/
def lowByte (w : Word) : Byte := w.extractLsb' 0 8

/-- `w[15:8]` (R9). -/
def highByte (w : Word) : Byte := w.extractLsb' 8 8

/-- `hi : lo` (R9): the high byte of a pair stands in the odd register (R22, R23) and, in program memory, at the odd
byte address (R54). -/
def joinBytes (hi lo : Byte) : Word := hi ++ lo

/-- `v` with bit `b` set to `x`, the other bits kept (R179, R180, R182). -/
def setBit (v : Byte) (b : BitNum) (x : Bool) : Byte :=
  if x then v ||| (1#8 <<< b.toNat) else v &&& ~~~(1#8 <<< b.toNat)

end Sys2Proof
end

