-- ==== Sys2Proof/Config.lean ====
section
/-! DEFINITION. What an implementation fixes (00_scope.md R6, R7), the launch parameters of a run
(70_reset_and_hazards.md R265), and the free values: constants without a body for what the spec leaves open.

The parameters are plain data. `State.launch` holds them, no step changes them, so a statement for every state is
a statement for every device (log 1). -/

namespace Sys2Proof.Config

/-! ## Device parameters -/

/-- The feature parameters of 00_scope.md R7: which instruction forms the device has. -/
structure Features where
  /-- MOVW. -/
  hasMovw : Bool
  /-- LPM Rd,Z and LPM Rd,Z+. -/
  hasLpmx : Bool
  /-- The three ELPM forms. -/
  hasElpm : Bool
  /-- SPM. -/
  hasSpm : Bool
  /-- SPM Z+. -/
  hasSpmZinc : Bool
  /-- XCH Z,Rd. -/
  hasXch : Bool
  /-- The one-word LDS and STS, in place of LDD, STD and the two-word LDS, STS; only R16..R31 exist. -/
  hasLds16 : Bool
  /-- BREAK. -/
  hasBreak : Bool
  deriving DecidableEq, Repr

/-- The ATmega32 column of R7. -/
def Features.atmega32 : Features :=
  { hasMovw := true, hasLpmx := true, hasElpm := false, hasSpm := true, hasSpmZinc := false, hasXch := false,
    hasLds16 := false, hasBreak := true }

/-- Every form of R96 that can stand beside LDD and STD (C6): the ATmega32's and the doubtful ones of C5. -/
def Features.extended : Features :=
  { Features.atmega32 with hasElpm := true, hasSpmZinc := true, hasXch := true }

/-- A reduced core of R7: the one-word LDS and STS. -/
def Features.reducedCore : Features :=
  { Features.atmega32 with hasLpmx := false, hasSpm := false, hasMovw := false, hasLds16 := true }

/-- The implementation parameters of 00_scope.md R6, and the four that the SPM device needs (R158; log 9, log 11). -/
structure Device where
  features : Features
  /-- `REG_COUNT`: 32, or 16 where only R16..R31 exist (R7). -/
  regCount : Nat
  /-- `REG_BITS`: 8, the one width the rules give a register (R20). -/
  regBits : Nat
  /-- `PC_BITS`: at most 16 (R229). -/
  pcBits : Nat
  /-- `FLASH_WORDS`. -/
  flashWords : Nat
  /-- `REGS_IN_DATA_SPACE`. -/
  regsInDataSpace : Bool
  /-- `IO_BASE`. -/
  ioBase : Nat
  /-- `IO_COUNT`: how many I/O addresses reach a register, at most 64. -/
  ioCount : Nat
  /-- `SRAM_START`. -/
  sramStart : Nat
  /-- `RAMEND`. -/
  ramEnd : Nat
  /-- `SP_BITS`. -/
  spBits : Nat
  /-- `IOADDR_SREG`. -/
  ioSreg : IoAddr
  /-- `IOADDR_SPH`. -/
  ioSph : IoAddr
  /-- `IOADDR_SPL`. -/
  ioSpl : IoAddr
  /-- `IOADDR_RAMPZ`, where RAMPZ exists. -/
  ioRampz : Option IoAddr
  /-- `IOADDR_EEARH`. -/
  ioEearh : IoAddr
  /-- `IOADDR_EEARL`. -/
  ioEearl : IoAddr
  /-- `IOADDR_EEDR`. -/
  ioEedr : IoAddr
  /-- `IOADDR_EECR`. -/
  ioEecr : IoAddr
  /-- The I/O address of MCUCR (R37). -/
  ioMcucr : IoAddr
  /-- The I/O address of SPMCR (R37). -/
  ioSpmcr : IoAddr
  /-- `EEPROM_BYTES`. -/
  eepromBytes : Nat
  /-- `VECTOR_COUNT`: the sources with a higher vector number do not exist. -/
  vectorCount : Nat
  /-- `VECTOR_STRIDE`, in program words. -/
  vectorStride : Nat
  /-- Words in one page of program memory (R158). -/
  pageWords : Nat
  /-- First word of the boot-loader section, from which alone SPM takes effect (R158; log 11). -/
  bootStart : Nat
  /-- First word of the no-read-while-write section (R158; log 11). -/
  nrwwStart : Nat
  deriving DecidableEq, Repr

/-- The ATmega32 column of R6, R37 and R158; the two section bounds are PRESUMED (log 11). -/
def Device.atmega32 : Device :=
  { features := Features.atmega32, regCount := 32, regBits := 8, pcBits := 14, flashWords := 16384,
    regsInDataSpace := true, ioBase := 0x20, ioCount := 64, sramStart := 0x60, ramEnd := 0x85F, spBits := 12, ioSreg := 0x3F, ioSph := 0x3E, ioSpl := 0x3D,
    ioRampz := none, ioEearh := 0x1F, ioEearl := 0x1E, ioEedr := 0x1D, ioEecr := 0x1C, ioMcucr := 0x35,
    ioSpmcr := 0x37, eepromBytes := 1024, vectorCount := 21, vectorStride := 2, pageWords := 64,
    bootStart := 0x3800, nrwwStart := 0x3800 }

/-- The first register that exists: the highest REG_COUNT of R0..R31 do (R7). -/
def Device.firstReg (d : Device) : Nat := 32 - d.regCount

/-- The device with other instruction forms: where they include ELPM it has a RAMPZ, at its own address or at 0x3B, that
of R6 (HAS_ELPM implies that RAMPZ exists, R7), and REG_COUNT is that of R7. -/
def Device.withFeatures (d : Device) (f : Features) : Device :=
  { d with
    features := f
    regCount := if f.hasLds16 then 16 else 32
    ioRampz := if f.hasElpm then some (d.ioRampz.getD 0x3B) else d.ioRampz }

/-- The parameter values for which R6, R7, R158, R220 and R229 give the parameters their meaning: widths that fit,
registers of a byte of which all or the upper half exist, a RAMPZ where ELPM exists, no vector beyond the table, and
program memory made of whole pages. -/
def Device.wf (d : Device) : Bool :=
  decide (d.pcBits ≤ 16) && decide (0 < d.flashWords) && decide (d.flashWords ≤ 2 ^ d.pcBits) &&
    decide (d.ioCount ≤ 64) && decide (d.spBits ≤ 16) && decide (0 < d.pageWords) &&
    decide (d.flashWords % d.pageWords = 0) && decide (d.regCount = if d.features.hasLds16 then 16 else 32) &&
    decide (d.regBits = 8) && (!d.features.hasElpm || d.ioRampz.isSome) && decide (d.vectorCount ≤ 21)

/-! ## Launch parameters -/

/-- `INTERRUPT_MODEL` (60_exceptions.md R231, D16). -/
inductive InterruptModel where
  /-- No interrupt is ever delivered; an instruction that would enable interrupts is refused. -/
  | none
  /-- The interrupt agent holds requests and enables, and R229 is performed where R225 holds. -/
  | agent
  deriving DecidableEq, Repr

/-- `SLEEP_MODE` (44_mcu_control.md R212, D18). -/
inductive SleepMode where
  /-- R212's operation itself: MCUCR.SE decides between the two below (log 7). -/
  | mcucr
  /-- Premise MCUCR.SE = 0: SLEEP only advances the pc. -/
  | nop
  /-- The core holds until an interrupt or a reset. -/
  | wait
  /-- SLEEP is refused. -/
  | refuse
  deriving DecidableEq, Repr

/-- `BREAK_MODE` (44_mcu_control.md R210, D20). -/
inductive BreakMode where
  /-- Debug system disabled: BREAK is NOP. -/
  | nop
  /-- The run ends at BREAK. -/
  | halt
  /-- BREAK is refused. -/
  | refuse
  deriving DecidableEq, Repr

/-- `EEPROM_MODEL` (60_exceptions.md R240, D22). -/
inductive EepromModel where
  /-- The device of R240 to R245. -/
  | device
  /-- The four registers are unmodelled I/O (R58). -/
  | oracle
  deriving DecidableEq, Repr

/-- Whether the model includes the SPM device with its control register (42_ R158, D21; log 9). -/
inductive SpmModel where
  /-- The device of R158: SPMCR, page buffer, five operations. -/
  | device
  /-- SPM is refused; SPMCR is unmodelled I/O. -/
  | refuse
  deriving DecidableEq, Repr

/-- The launch parameters of a run (70_reset_and_hazards.md R265) that are not memory contents. -/
structure Launch where
  device : Device
  interruptModel : InterruptModel
  sleepMode : SleepMode
  breakMode : BreakMode
  eepromModel : EepromModel
  spmModel : SpmModel
  /-- WDTCR.WDE, the premise of 44_ R213: false is "the watchdog is disabled". -/
  watchdogEnabled : Bool
  /-- `END_PC` (R275): the word address at which the run ends, if the run has one. -/
  endPc : Option Word
  deriving DecidableEq, Repr

/-- The launch parameters at `State.reset`: the ATmega32, and in each mode the choice under which the instruction
has an effect (log 1, 6, 7, 8, 9). -/
def Launch.atmega32 : Launch :=
  { device := Device.atmega32, interruptModel := .agent, sleepMode := .mcucr, breakMode := .nop,
    eepromModel := .device, spmModel := .device, watchdogEnabled := false, endPc := none }

/-! ## Free values

Nothing constrains these constants. Each is applied to `State.draws`, a counter that advances, so that two draws need
not agree (log 17). -/

/-- The value read from an I/O register the spec does not model (R58, D12), by draw and address. -/
opaque ioDraw : Nat → IoAddr → Byte

/-- EEMWE as read once its one instruction has passed (R241). -/
opaque eemweDraw : Nat → Bool

/-- The low five bits of SPMCR still set once their one instruction has passed (R158; log 10). -/
opaque spmcrDraw : Nat → BitVec 5

/-- Whether an SPM after the one instruction next to the SPMCR write still acts (R158; log 10). -/
opaque spmActsDraw : Nat → Bool

/-- Whether SPM_RDY's level holds while SPMEN is a draw (R226; log 10). -/
opaque spmReadyDraw : Nat → Bool

/-- The byte LPM or ELPM reads where R271 forbids the read (a busy section, fuse and lock bits), by draw and byte
address (log 13, log 14). -/
opaque progDraw : Nat → Nat → Byte

/-- General register `i` after a reset in mid-run (R41, R261; log 23). -/
opaque resetReg : Nat → Nat → Byte

/-- The EEPROM address register after a reset in mid-run (R41; log 23). -/
opaque resetEear : Nat → Word

/-- The datum of an EEPROM write that a reset interrupted (R262; log 23). -/
opaque interruptedByte : Nat → Byte

/-- Whether EEWE still reads 1 after a reset in mid-run that found a write pending (R41; log 23). -/
opaque resetEewe : Nat → Bool

end Sys2Proof.Config
end

