-- ==== Sys2Proof/Machine/State.lean ====
section
/-! DEFINITION. The state of the machine as plain data (10_state.md), the reasons a step can stop (60_exceptions.md
R237), and the state after reset (10_state.md R41, 70_reset_and_hazards.md R261). INVENTORY.md lists every field with
its rule and its reset value. -/

namespace Sys2Proof.Machine

open Config

/-! ## Memories -/

/-- The memories (R39, R50): each has its own addresses, all counted in bytes. -/
inductive Space where
  /-- Internal SRAM, by data address (R51). -/
  | sram
  /-- Program memory, by byte address (R54). -/
  | flash
  /-- The EEPROM (R71). -/
  | eeprom
  /-- The SPM temporary page buffer, by byte offset in the page (R40, R158). -/
  | pageBuffer
  deriving DecidableEq, Repr

/-- The contents of the memories, each a list of address and byte pairs in the one canonical form `Memory.wf`. -/
structure Memory where
  sram : List Host.Cell
  flash : List Host.Cell
  eeprom : List Host.Cell
  pageBuffer : List Host.Cell
  deriving DecidableEq, Repr

/-! ## Devices and other agents -/

/-- A timed unlock bit that hardware clears after four clock cycles (EEMWE R241, SPMEN R158), without a clock: it is
known to be 1 during the one instruction after the one that set it. -/
inductive Window where
  /-- The bit is 0. -/
  | closed
  /-- Set by the instruction being executed; never seen between instructions. -/
  | armed
  /-- 1 during the next instruction. -/
  | open
  /-- Set more than one instruction ago: a draw (R241). -/
  | stale
  deriving DecidableEq, Repr

/-- An EEPROM write in progress: the address and the datum that were in EEAR and EEDR when EEWE was set (R242). -/
structure EepromWrite where
  addr : Nat
  value : Byte
  deriving DecidableEq, Repr

/-- A page erase or page write in progress (R158), by the byte address at which the page begins. -/
inductive SpmJob where
  | erase (base : Nat)
  | write (base : Nat)
  deriving DecidableEq, Repr

/-- The interrupt sources: vectors 2..21 of the table (60_exceptions.md R220), in its order. -/
inductive Irq where
  | int0 | int1 | int2
  | timer2Comp | timer2Ovf
  | timer1Capt | timer1CompA | timer1CompB | timer1Ovf
  | timer0Comp | timer0Ovf
  | spiStc | usartRxc | usartUdre | usartTxc
  | adc | eeRdy | anaComp | twi | spmRdy
  deriving DecidableEq, Repr

/-- The five causes of vector 1, Reset (R220, R260). -/
inductive ResetCause where
  | pin | powerOn | watchdog | brownOut | jtag
  deriving DecidableEq, Repr

/-- What a peripheral, the EEPROM agent, the SPM unit or the watchdog does in one turn (R13, R231, R242, R158, R213). -/
inductive DeviceEvent where
  /-- The EEPROM agent ends the write in progress (R242). -/
  | eepromDone
  /-- The program-memory write unit ends its job (R158). -/
  | spmDone
  /-- A peripheral sets its request flag (R225, R230). -/
  | raise (v : Irq)
  /-- A request flag clears: by software, by a device access, or because a level ended (R226, R230). -/
  | drop (v : Irq)
  /-- The pin of a source with a low-level mode begins or ends a level request (R226, R230). -/
  | level (v : Irq) (on : Bool)
  /-- An individual enable bit changes (R231: oracle-driven, since no enable register is modelled). -/
  | setEnable (v : Irq) (on : Bool)
  /-- The watchdog's oscillator ticks (R213). -/
  | watchdogTick
  deriving DecidableEq, Repr

/-- Who moves next (R13, D11; log 15). -/
inductive Turn where
  /-- The core executes an instruction; no interrupt is delivered at this boundary (R231: may, not must). -/
  | core
  /-- The interrupt that can be taken at this boundary is delivered, if one can (R225, R231). -/
  | interrupt
  /-- A device acts between two instructions. -/
  | device (e : DeviceEvent)
  /-- A device acts between the two accesses of a read-modify-write, if one is being executed, else as `device`
  (R61, D11). -/
  | mid (e : DeviceEvent)
  /-- A reset occurs (R260, R263). -/
  | reset (c : ResetCause)
  deriving DecidableEq, Repr

/-- A recorded access to an I/O register the spec does not model (R58, D12). -/
inductive IoEvent where
  | read (a : IoAddr) (v : Byte)
  | write (a : IoAddr) (v : Byte)
  deriving DecidableEq, Repr

/-! ## Why a step stops -/

/-- The faults of 60_exceptions.md R237, and the ends of a run of R275. The machine stops: none is a hardware event. -/
inductive Fault where
  /-- `fault ReadUnwritten`: an SRAM byte that nothing has written is read (R41, R56). Raised by `memRead`.
  Safe: hardware would go on with an unknown byte. -/
  | readUnwritten (addr : Nat)
  /-- `fault UndefinedOperandCombination` (R127, R144, R153, R156, R164). Raised by the loads and stores that update
  their pointer, LPM and ELPM with post-increment, and XCH. Safe: hardware would go on with unstated values. -/
  | undefinedOperandCombination
  /-- `fault EepromMisuse`: the EEPROM registers were driven outside the procedure of R245 (R241 to R243). Raised by
  `ioWrite`. Safe: hardware would go on. -/
  | eepromMisuse
  /-- An instruction is fetched from the section of program memory that an SPM operation made unreadable (R271).
  Raised by `fetchWord`. Safe: hardware would execute an unstated word. -/
  | busySectionFetch (wordAddr : Nat)
  /-- The run ended normally: pc = END_PC before fetching (R275). Raised by `step`. Safe: END_PC is a launch
  parameter, absent at `State.reset`. -/
  | endOfRun
  /-- The run ended at BREAK under BREAK_MODE = halt (R210, R275). Raised by `execBrk`. Safe: a launch parameter. -/
  | debugHalt
  deriving DecidableEq, Repr

/-- The refusals of 60_exceptions.md R237: the model gives the step no meaning. -/
inductive Refusal where
  /-- An instruction without a meaning in this model, by its mnemonic. Raised by no arm of `exec`. Safe. -/
  | notModelled (mnemonic : String)
  /-- `refuse NotInScope(w)`: the word is none of the 74 forms, or the form is absent on the device (R8, R101).
  Raised by `fetchInstr`. Safe: hardware has no trap here and does something unstated. -/
  | notInScope (w : Word)
  /-- `refuse NotInScope`, reason: the fetch is outside program memory, or wrapped past its top (R26). Raised by
  `fetchWord` and `fetchInstr`. Safe: hardware wraps. -/
  | fetchOutside (wordAddr : Nat)
  /-- `refuse NotInScope`, reason: interrupts enabled under INTERRUPT_MODEL = none (R231). Raised by `writeSreg`.
  Safe: a launch parameter, `agent` at `State.reset`. -/
  | interruptsNotModelled
  /-- `refuse NotInScope`, reason: SLEEP_MODE = refuse (R212). Raised by `execSleep`. Safe: a launch parameter. -/
  | sleepNotModelled
  /-- `refuse NotInScope(0x9598)`: BREAK_MODE = refuse (R210). Raised by `execBrk`. Safe: a launch parameter. -/
  | breakNotModelled
  /-- `refuse UnimplementedDataAddress(addr)` (R56, R57, R64). Raised by `memRead` and `memWrite`.
  Safe: hardware returns unstated data or mirrors. -/
  | unimplementedDataAddress (addr : Nat)
  /-- LPM or ELPM at or beyond FLASH_WORDS words (R64, R150). Raised by `progRead`. Safe: hardware ignores the upper
  bits. -/
  | unimplementedProgramAddress (byteAddr : Nat)
  /-- An EEPROM address at or beyond EEPROM_BYTES (R64). Raised by `ioWrite`. Safe: cannot arise on the ATmega32. -/
  | unimplementedEepromAddress (addr : Nat)
  /-- `refuse SpmUnmodelled` (R158): the launch parameters leave the SPM device out. Raised by `spmOperation`.
  Safe: a launch parameter, `device` at `State.reset`. -/
  | spmUnmodelled
  deriving DecidableEq, Repr

/-! ## State -/

/-- The state of the machine: everything the spec gives it, and the three fields `pcWrapped`, `agenda` and `draws` that
are the model's own. -/
structure State where
  /-- x[0]..x[31] (R20). -/
  regs : Vector Byte 32
  /-- The program counter, a word address (R24). -/
  pc : Word
  /-- The last advance of the pc wrapped past the top of the address space (R26; log 19). -/
  pcWrapped : Bool
  /-- SREG: bits C 0, Z 1, N 2, V 3, S 4, H 5, T 6, I 7 (R27). -/
  sreg : Byte
  /-- SP (R31). -/
  sp : Word
  /-- RAMPZ (R33). -/
  rampz : Byte
  /-- SRAM, program memory, EEPROM, SPM page buffer (R39, R40). -/
  mem : Memory
  /-- EEARH (R36). -/
  eearh : Byte
  /-- EEARL (R36). -/
  eearl : Byte
  /-- EEDR (R36). -/
  eedr : Byte
  /-- EERIE, EECR bit 3 (R35, R244). -/
  eerie : Bool
  /-- EEMWE, EECR bit 2, `ee_window` (R240, R241). -/
  eeWindow : Window
  /-- EEWE, EECR bit 1, `ee_busy`: a write in progress (R240, R242). -/
  eeWrite : Option EepromWrite
  /-- MCUCR as last written: SE is bit 7 (R37, R212; log 7). No read gives it back (R58, D12). -/
  mcucr : Byte
  /-- SPMCR as last written: SPMIE 7, RWWSB 6, RWWSRE 4, BLBSET 3, PGWRT 2, PGERS 1, SPMEN 0 (R37, R158; log 9). -/
  spmcr : Byte
  /-- Whether SPMCR's low five bits are still in force (R158). -/
  spmWindow : Window
  /-- A page erase or page write in progress (R158). -/
  spmJob : Option SpmJob
  /-- The boot lock bits that BLBSET sets (R158; log 14). -/
  lockBits : Byte
  /-- Request flags: bit n is the flag of vector n, 2..21 (R40, R225). -/
  irqFlags : BitVec 22
  /-- Level requests held by a pin: bit n is that of vector n (R226, R230; log 41). -/
  irqLevels : BitVec 22
  /-- Individual enable bits: bit n is that of vector n, 2..21 (R225, R231). -/
  irqEnables : BitVec 22
  /-- The one-instruction hold-off (R228). -/
  holdoff : Bool
  /-- The sleep state (R212). -/
  asleep : Bool
  /-- The watchdog counter: ticks since it was cleared (R213). -/
  watchdog : Nat
  /-- Recorded accesses to unmodelled I/O registers, newest first (R58). -/
  ioEvents : List IoEvent
  /-- Who moves next; empty means the core, after any interrupt that can be taken (log 15). -/
  agenda : List Turn
  /-- How many free values have been drawn (log 17). -/
  draws : Nat
  /-- The launch parameters (R265). -/
  launch : Launch
  deriving DecidableEq, Repr

/-- Memories with nothing listed: every byte reads as `Space.fill` says (log 4, log 5). -/
def Memory.blank : Memory := { sram := [], flash := [], eeprom := [], pageBuffer := [] }

/-- The machine right after reset (10_state.md R41, 70_reset_and_hazards.md R261), on the ATmega32 (log 1). The values
that R41 does not give are the log's: 2, 3, 5, 7, 9, 12, 14, 21, 24, 38, 41. -/
def State.reset : State :=
  { regs := Vector.replicate 32 0x00#8
    pc := 0x0000
    pcWrapped := false
    sreg := 0x00
    sp := 0x0000
    rampz := 0x00
    mem := Memory.blank
    eearh := 0x00
    eearl := 0x00
    eedr := 0x00
    eerie := false
    eeWindow := .closed
    eeWrite := none
    mcucr := 0x00
    spmcr := 0x00
    spmWindow := .closed
    spmJob := none
    lockBits := 0xFF
    irqFlags := 0
    irqLevels := 0
    irqEnables := 0
    holdoff := false
    asleep := false
    watchdog := 0
    ioEvents := []
    agenda := []
    draws := 0
    launch := Launch.atmega32 }

end Sys2Proof.Machine
end

