-- ==== Sys2Proof/Machine/Memory.lean ====
section
/-! DEFINITION. Reading and writing one byte of a memory (20_memory.md R52, R54, R56, R71), over lists of address and
byte pairs in one canonical form: addresses strictly rising, and no entry equal to what an unlisted address reads as. -/

namespace Sys2Proof.Machine

/-- What an address that is not listed reads as. SRAM: no value, nothing has written it (R41, R56; log 4). Program
memory: the erased byte (R211, R265). EEPROM and page buffer: the family's erased byte (log 5, log 12). -/
def Space.fill : Space → Option Byte
  | .sram => none
  | .flash => some 0xFF
  | .eeprom => some 0xFF
  | .pageBuffer => some 0xFF

/-- The byte listed at `a`, if one is. -/
def lookupCell : List Host.Cell → Nat → Option Byte
  | [], _ => none
  | c :: cs, a => if c.1 = a then some c.2 else lookupCell cs a

/-- List `v` at `a`, keeping the addresses rising. -/
def insertCell : List Host.Cell → Nat → Byte → List Host.Cell
  | [], a, v => [(a, v)]
  | c :: cs, a, v =>
    if a < c.1 then (a, v) :: c :: cs else if a = c.1 then (a, v) :: cs else c :: insertCell cs a v

/-- List nothing at `a`. -/
def eraseCell : List Host.Cell → Nat → List Host.Cell
  | [], _ => []
  | c :: cs, a => if c.1 = a then eraseCell cs a else c :: eraseCell cs a

/-- Addresses strictly rising. -/
def cellsRising : List Host.Cell → Bool
  | [] => true
  | c :: cs => cs.all (fun d => decide (c.1 < d.1)) && cellsRising cs

/-- The canonical form of one memory: addresses strictly rising, no entry equal to `fill`. -/
def cellsWf (fill : Option Byte) (cs : List Host.Cell) : Bool :=
  cellsRising cs && cs.all (fun c => decide (some c.2 ≠ fill))

/-- The cells of one memory. -/
def Memory.cells (m : Memory) : Space → List Host.Cell
  | .sram => m.sram
  | .flash => m.flash
  | .eeprom => m.eeprom
  | .pageBuffer => m.pageBuffer

/-- Replace the cells of one memory. -/
def Memory.setCells (m : Memory) (sp : Space) (cs : List Host.Cell) : Memory :=
  match sp with
  | .sram => { m with sram := cs }
  | .flash => { m with flash := cs }
  | .eeprom => { m with eeprom := cs }
  | .pageBuffer => { m with pageBuffer := cs }

/-- One byte of a memory; none where nothing has written it and the memory has no erased value. -/
def Memory.read (m : Memory) (sp : Space) (a : Nat) : Option Byte :=
  match lookupCell (m.cells sp) a with
  | some v => some v
  | none => sp.fill

/-- One byte of a memory whose every byte has a value (program memory, EEPROM, page buffer). -/
def Memory.byte (m : Memory) (sp : Space) (a : Nat) : Byte := (m.read sp a).getD 0xFF

/-- Write one byte; writing what an unlisted address reads as removes the entry. -/
def Memory.write (m : Memory) (sp : Space) (a : Nat) (v : Byte) : Memory :=
  m.setCells sp (if sp.fill = some v then eraseCell (m.cells sp) a else insertCell (m.cells sp) a v)

/-- Write `n` bytes from `a` on, the byte at offset `i` being `f i`. -/
def Memory.writeRun (m : Memory) (sp : Space) (a : Nat) (f : Nat → Byte) : Nat → Memory
  | 0 => m
  | n + 1 => (m.writeRun sp a f n).write sp (a + n) (f n)

/-- Every memory is in its canonical form. -/
def Memory.wf (m : Memory) : Bool :=
  cellsWf (Space.fill .sram) m.sram && cellsWf (Space.fill .flash) m.flash &&
    cellsWf (Space.fill .eeprom) m.eeprom && cellsWf (Space.fill .pageBuffer) m.pageBuffer

/-- `ProgWord(wa)`: the word at a word address, low byte first (R53, R54). -/
def Memory.progWord (m : Memory) (wa : Nat) : Word :=
  BitVec.append (m.byte .flash (2 * wa + 1)) (m.byte .flash (2 * wa))

end Sys2Proof.Machine
end

