-- ==== Sys2Proof/Machine/Access.lean ====
section
/-! DEFINITION. The one way to read and write each register: general registers and their pairs (10_state.md R20, R22;
40_data_transfer_register_and_load.md R110), SREG (R27), SP (R31), RAMPZ (R33), the pc (R25, R26), and the answers of
operations that may stop. -/

namespace Sys2Proof.Machine

open Config

/-- What an operation answers: a value, a fault or a refusal. -/
abbrev Res (α : Type) := Host.Outcome α Fault Refusal

/-- Go on with the value, if there is one. -/
def andThen {α β : Type} (r : Res α) (k : α → Res β) : Res β :=
  match r with
  | .next a => k a
  | .fault f => .fault f
  | .refused f => .refused f

/-! ## General registers -/

/-- `x[i]` (R20). -/
def State.reg (s : State) (i : Reg) : Byte := s.regs[i.toNat]'(i.isLt)

/-- `x[i] <- v` (R20): no register is hard-wired. -/
def State.setReg (s : State) (i : Reg) (v : Byte) : State := { s with regs := s.regs.set i.toNat v i.isLt }

/-- The address registers (R22). -/
inductive Ptr where
  | X | Y | Z
  deriving DecidableEq, Repr

/-- The register that holds the low byte: R26, R28, R30 (R22). -/
def Ptr.lo : Ptr → Reg
  | .X => 26
  | .Y => 28
  | .Z => 30

/-- The register that holds the high byte: R27, R29, R31 (R22). -/
def Ptr.hi : Ptr → Reg
  | .X => 27
  | .Y => 29
  | .Z => 31

/-- The 16-bit view of a pair (R22). -/
def State.ptr (s : State) (p : Ptr) : Word := joinBytes (s.reg p.hi) (s.reg p.lo)

/-- `Z <- v` means both halves (R22). -/
def State.setPtr (s : State) (p : Ptr) (v : Word) : State :=
  (s.setReg p.lo (lowByte v)).setReg p.hi (highByte v)

/-- The whole data space, registers, I/O and SRAM, has at most 256 bytes (R110(d)). -/
def smallDataSpace (d : Device) : Bool := decide (d.ioBase + d.ioCount ≤ 256) && decide (d.ramEnd < 256)

/-- A pointer as a data address: the pair, or the low register alone where the data space is small (R110(d)). -/
def State.dataPtr (s : State) (p : Ptr) : Word :=
  if smallDataSpace s.launch.device then (s.reg p.lo).setWidth 16 else s.ptr p

/-- A data pointer moved by `n` modulo 65536, or modulo 256 where the low register alone is used (R110(d); log 45). -/
def State.movedPtr (s : State) (p : Ptr) (n : Word) : Word :=
  if smallDataSpace s.launch.device then (lowByte (s.dataPtr p + n)).setWidth 16 else s.dataPtr p + n

/-- Write a data pointer back: the pair, or the low register alone where the data space is small (R110(d)). -/
def State.setDataPtr (s : State) (p : Ptr) (v : Word) : State :=
  if smallDataSpace s.launch.device then s.setReg p.lo (lowByte v) else s.setPtr p v

/-! ## SREG -/

/-- Bit numbers of SREG (R27). -/
def flagC : BitNum := 0
/-- Zero (R27). -/
def flagZ : BitNum := 1
/-- Negative (R27). -/
def flagN : BitNum := 2
/-- Two's-complement overflow (R27). -/
def flagV : BitNum := 3
/-- Sign (R27). -/
def flagS : BitNum := 4
/-- Half carry (R27). -/
def flagH : BitNum := 5
/-- Bit-copy storage (R27). -/
def flagT : BitNum := 6
/-- Global interrupt enable (R27). -/
def flagI : BitNum := 7

/-- `SREG[b]`. -/
def State.flag (s : State) (b : BitNum) : Bool := s.sreg.getLsbD b.toNat

/-- `SREG[b] <- x`, the other seven bits unchanged (R199). -/
def State.setFlag (s : State) (b : BitNum) (x : Bool) : State := { s with sreg := setBit s.sreg b x }

/-- `SREG <- v`, all eight bits (R59). Under INTERRUPT_MODEL = none a write with bit 7 = 1 is refused (R231). -/
def writeSreg (s : State) (v : Byte) : Res State :=
  if s.launch.interruptModel = .none ∧ v.getLsbD 7 = true then .refused .interruptsNotModelled
  else .next { s with sreg := v }

/-! ## SP and RAMPZ -/

/-- `SP <- v`: only the low SP_BITS bits are implemented, the others stay 0 (R31, R59). -/
def State.setSp (s : State) (v : Word) : State :=
  { s with sp := v &&& BitVec.ofNat 16 (2 ^ s.launch.device.spBits - 1) }

/-- How many low bits of RAMPZ program memory needs: those of a byte address above bit 15 (R33; log 30). -/
def rampzBits (d : Device) : Nat := Nat.log2 (2 * d.flashWords - 1) + 1 - 16

/-- `RAMPZ <- v`: the bits program memory does not need read 0 (R33). -/
def State.setRampz (s : State) (v : Byte) : State :=
  { s with rampz := v &&& BitVec.ofNat 8 (2 ^ rampzBits s.launch.device - 1) }

/-- The 24-bit byte address `RAMPZ : Z` (R33, R157). -/
def State.rampzZ (s : State) : BitVec 24 := s.rampz ++ s.ptr .Z

/-- `(RAMPZ : Z) <- v` (R156). -/
def State.setRampzZ (s : State) (v : BitVec 24) : State :=
  (s.setRampz (v.extractLsb' 16 8)).setPtr .Z (v.extractLsb' 0 16)

/-! ## The pc and the end of an instruction -/

/-- `pc <- pc + n` modulo 2^PC_BITS, and whether it wrapped past the top (R25, R26; log 19). -/
def State.advance (s : State) (n : Nat) : State :=
  let t := s.pc.toNat + n
  { s with
    pc := BitVec.ofNat 16 (t % 2 ^ s.launch.device.pcBits)
    pcWrapped := decide (2 ^ s.launch.device.pcBits ≤ t) }

/-- A timed unlock bit after one more instruction: set by this one, it is 1 during the next; later it is a draw
(R241). -/
def Window.age : Window → Window
  | .closed => .closed
  | .armed => .open
  | .open => .stale
  | .stale => .stale

/-- One more free value has been drawn (log 17). -/
def State.tick (s : State) : State := { s with draws := s.draws + 1 }

/-- The end of an instruction of `n` words: the pc advances (R25), the hold-off is over (R228), the timed unlock bits
age (R241), and the next free values are other ones. -/
def retire (n : Nat) (s : State) : State :=
  { (s.advance n).tick with
    holdoff := false
    eeWindow := s.eeWindow.age
    spmWindow := s.spmWindow.age }

end Sys2Proof.Machine
end

