-- ==== Sys2Proof/Machine/Flags.lean ====
section
/-! DEFINITION. The results and flags of the shifts and rotates (43_bit_and_bit_test.md R170 to R176), and the writing
of one bit of SREG (R199). -/

namespace Sys2Proof.Machine

open Config

/-! ## Results -/

/-- LSL: `(v << 1)[7:0]` (R171). -/
def lslResult (v : Byte) : Byte := v <<< 1

/-- LSR: `v >> 1`, bit 7 is 0 (R172). -/
def lsrResult (v : Byte) : Byte := v >>> 1

/-- ROL: the old Carry enters bit 0 (R173). -/
def rolResult (v : Byte) (c : Bool) : Byte := (v <<< 1) ||| (0#7 ++ BitVec.ofBool c)

/-- ROR: the old Carry enters bit 7 (R174). -/
def rorResult (v : Byte) (c : Bool) : Byte := (BitVec.ofBool c ++ 0#7) ||| (v >>> 1)

/-- ASR: bit 7 keeps its value (R175). -/
def asrResult (v : Byte) : Byte := (v &&& 0x80#8) ||| (v >>> 1)

/-- SWAP: `v[3:0] : v[7:4]` (R176). -/
def swapResult (v : Byte) : Byte := v.extractLsb' 0 4 ++ v.extractLsb' 4 4

/-! ## Flags -/

/-- S, V, N, Z, C of a shift with result `r` and outgoing bit `c` (R170): V = N xor C, S = N xor V. -/
def svnzc (r : Byte) (c : Bool) : BitVec 5 :=
  let n := r.getLsbD 7
  let v := n.xor c
  BitVec.ofBool (n.xor v) ++ BitVec.ofBool v ++ BitVec.ofBool n ++ BitVec.ofBool (r == 0) ++ BitVec.ofBool c

/-- SREG after LSR, ROR, ASR: I, T, H unchanged (R170). -/
def rightShiftFlags (sreg r : Byte) (c : Bool) : Byte := sreg.extractLsb' 5 3 ++ svnzc r c

/-- SREG after LSL, ROL of `v`: I, T unchanged, H is the old bit 3 (R170). -/
def leftShiftFlags (sreg v r : Byte) (c : Bool) : Byte :=
  sreg.extractLsb' 6 2 ++ BitVec.ofBool (v.getLsbD 3) ++ svnzc r c

/-! ## Shared operations -/

/-- A left shift or rotate of a register to `r` (R170): C is the old bit 7. -/
def shiftLeft (d : Reg) (r : Byte) (s : State) : Res State :=
  .next (retire 1
    { s.setReg d r with sreg := leftShiftFlags s.sreg (s.reg d) r ((s.reg d).getLsbD 7) })

/-- A right shift or rotate of a register to `r` (R170): C is the old bit 0. -/
def shiftRight (d : Reg) (r : Byte) (s : State) : Res State :=
  .next (retire 1 { s.setReg d r with sreg := rightShiftFlags s.sreg r ((s.reg d).getLsbD 0) })

/-- Set one bit of SREG (R177, R199). Setting I (BSET 7, SEI) also begins the hold-off (R189, R228), and is refused
under INTERRUPT_MODEL = none (R231). -/
def setSregBit (b : BitNum) (s : State) : Res State :=
  if b = flagI then
    andThen (writeSreg s (setBit s.sreg b true)) fun t => .next { retire 1 t with holdoff := true }
  else .next (retire 1 (s.setFlag b true))

/-- Clear one bit of SREG (R178, R199). -/
def clearSregBit (b : BitNum) (s : State) : Res State := .next (retire 1 (s.setFlag b false))

end Sys2Proof.Machine
end

