-- ==== Sys2Proof/Machine/Devices.lean ====
section
/-! DEFINITION. The EEPROM device (60_exceptions.md R240 to R245), the SPM device (42_data_transfer_progmem_io_stack.md
R158; log 9 to 14), the requests of the interrupt agent (60_exceptions.md R220 to R231), and what each device does in
its turn. -/

namespace Sys2Proof.Machine

open Config

/-! ## EEPROM -/

/-- The EEPROM address `EEARH[1:0] : EEARL` (R36). -/
def State.eepromAddr (s : State) : Nat := (joinBytes (s.eearh &&& 0x03#8) s.eearl).toNat

/-- EEMWE as it reads (R240, R241). -/
def State.eemwe (s : State) : Bool :=
  match s.eeWindow with
  | .closed => false
  | .armed => true
  | .open => true
  | .stale => eemweDraw s.draws

/-- A read of EECR: `0b0000 : EERIE : EEMWE : EEWE : 0` (R240). -/
def State.eecr (s : State) : Byte :=
  0#4 ++ BitVec.ofBool s.eerie ++ BitVec.ofBool s.eemwe ++ BitVec.ofBool s.eeWrite.isSome ++ 0#1

/-- EERE: the addressed cell into EEDR (R243); an address beyond EEPROM_BYTES is refused (R64). -/
def eepromRead (s : State) : Res State :=
  if s.eepromAddr < s.launch.device.eepromBytes then .next { s with eedr := s.mem.byte .eeprom s.eepromAddr }
  else .refused (.unimplementedEepromAddress s.eepromAddr)

/-- EEWE with EEMWE open: the write starts, with the address and datum of this moment, and EEMWE clears (R242). It must
not start while the program memory is being written (R245 step 2). -/
def eepromWriteStart (s : State) : Res State :=
  if s.spmJob.isSome = true then .fault .eepromMisuse
  else if s.eepromAddr < s.launch.device.eepromBytes then
    .next { s with eeWrite := some { addr := s.eepromAddr, value := s.eedr }, eeWindow := .closed }
  else .refused (.unimplementedEepromAddress s.eepromAddr)

/-- A write of EECR (R241 to R244): EERIE is an ordinary bit; EEMWE opens or closes its window; EEWE and EERE are
strobes. The conditions of EEWE are those before this write. -/
def eecrWrite (s : State) (v : Byte) : Res State :=
  let t := { s with
    eerie := v.getLsbD 3
    eeWindow := if v.getLsbD 2 then .armed else .closed }
  if v.getLsbD 0 = true ∧ v.getLsbD 1 = true then .fault .eepromMisuse
  else if v.getLsbD 0 = true then
    if s.eeWrite.isSome = true then .fault .eepromMisuse else eepromRead t
  else if v.getLsbD 1 = true then
    if s.eeWrite.isSome = true then .next t
    else
      match s.eeWindow with
      | .closed => if v.getLsbD 2 = true then .fault .eepromMisuse else .next t
      | .armed => eepromWriteStart t
      | .open => eepromWriteStart t
      | .stale => .fault .eepromMisuse
  else .next t

/-- A write of EEARH, EEARL or EEDR while a write is in progress is a misuse (R242). -/
def eepromRegWrite (s t : State) : Res State :=
  if s.eeWrite.isSome = true then .fault .eepromMisuse else .next t

/-- The EEPROM agent ends the write in progress (R242). -/
def eepromFinish (s : State) : State :=
  match s.eeWrite with
  | some w => { s with mem := s.mem.write .eeprom w.addr w.value, eeWrite := none }
  | none => s

/-! ## SPM -/

/-- SPMCR as it reads (log 9, log 10): the low five bits are in force while an operation runs or the window is open. -/
def State.spmcrValue (s : State) : Byte :=
  if s.spmJob.isSome = true then s.spmcr
  else
    match s.spmWindow with
    | .closed => s.spmcr &&& 0xC0#8
    | .armed => s.spmcr
    | .open => s.spmcr
    | .stale => s.spmcr &&& (0b110#3 ++ spmcrDraw s.draws)

/-- A write of SPMCR (R158; log 9): SPMEN opens the window and the bits written with it select the operation; RWWSB is
not written; while an operation runs only SPMIE is. With SPMEN = 0 the selecting bits are dropped and read 0: DESIGN
CHOICE, the spec does not say whether they are kept (log 42). -/
def spmcrWrite (s : State) (v : Byte) : State :=
  if s.spmJob.isSome = true then { s with spmcr := setBit s.spmcr 7 (v.getLsbD 7) }
  else if v.getLsbD 0 = true then
    { s with spmcr := (v &&& 0x9F#8) ||| (s.spmcr &&& 0x40#8), spmWindow := .armed }
  else { s with spmcr := (v &&& 0x80#8) ||| (s.spmcr &&& 0x40#8), spmWindow := .closed }

/-- SPMEN and the bits that select an operation clear (R158). -/
def closeSpm (s : State) : State := { s with spmcr := s.spmcr &&& 0xC0#8, spmWindow := .closed }

/-- Bytes in one page of program memory. -/
def pageBytes (d : Device) : Nat := 2 * d.pageWords

/-- The byte address in program memory that SPM uses: `RAMPZ : Z` where RAMPZ exists, else Z alone (R157). -/
def State.spmAddr (s : State) : Nat :=
  if s.launch.device.ioRampz.isSome then s.rampzZ.toNat else (s.ptr .Z).toNat

/-- The word SPM addresses, bit 0 of the byte address ignored (R158). An address at or beyond FLASH_WORDS words is taken
modulo FLASH_WORDS: DESIGN CHOICE, R64 speaks only of reads and R158 gives the bits of Z for the ATmega32 alone
(log 43). -/
def State.spmWord (s : State) : Nat := s.spmAddr / 2 % s.launch.device.flashWords

/-- The index of that word in its page: `Z[6:1]` on the ATmega32 (R158). -/
def State.spmIndex (s : State) : Nat := s.spmWord % s.launch.device.pageWords

/-- The byte address at which its page begins: that of page `Z[14:7]` on the ATmega32 (R158). -/
def State.spmPage (s : State) : Nat := s.spmWord / s.launch.device.pageWords * s.launch.device.pageWords * 2

/-- The effect of a page erase or page write when it ends (R158; log 12: the page buffer is erased after a page
write). The next fetch sees the new words: DESIGN CHOICE, the spec does not say when a fetch sees them (R69; log 46). -/
def finishJob (j : SpmJob) (s : State) : State :=
  match j with
  | .erase base => { s with mem := s.mem.writeRun .flash base (fun _ => 0xFF) (pageBytes s.launch.device) }
  | .write base =>
    { s with
      mem := (s.mem.writeRun .flash base (fun i => s.mem.byte .pageBuffer i) (pageBytes s.launch.device)).setCells
        .pageBuffer [] }

/-- Start a page operation (R158): in the no-read-while-write section the core is halted until it ends; in the other
it goes on, RWWSB is set, and the write unit ends the job in a later turn. -/
def startJob (j : SpmJob) (s : State) : State :=
  if s.launch.device.nrwwStart ≤ s.spmPage / 2 then closeSpm (finishJob j s)
  else { s with spmJob := some j, spmcr := s.spmcr ||| 0x40#8, spmWindow := .closed }

/-- The write unit ends its job (R158): SPMEN clears. -/
def spmFinish (s : State) : State :=
  match s.spmJob with
  | some j => closeSpm { finishJob j s with spmJob := none }
  | none => s

/-- `x[1] : x[0]` into the page buffer at the word index (R158, operation 1). -/
def fillBuffer (s : State) : State :=
  { s with
    mem := (s.mem.write .pageBuffer (2 * s.spmIndex) (s.reg 0)).write .pageBuffer (2 * s.spmIndex + 1) (s.reg 1) }

/-- The operation that SPMCR's low five bits select (R158): one of five; any other combination has no effect
(log 12). -/
def spmAct (s : State) : State :=
  match (s.spmcr.extractLsb' 0 5).toNat with
  | 0b00001 => closeSpm (fillBuffer s)
  | 0b00011 => startJob (.erase s.spmPage) s
  | 0b00101 => startJob (.write s.spmPage) s
  | 0b01001 => closeSpm { s with lockBits := s.lockBits &&& (s.reg 0 ||| 0xC3#8) }
  | 0b10001 => closeSpm { s with spmcr := s.spmcr &&& 0xBF#8, mem := s.mem.setCells .pageBuffer [] }
  | _ => closeSpm s

/-- What SPM does besides advancing the pc (R158): nothing unless it is executed from the boot-loader section and SPMEN
is in force. After the one instruction next to the SPMCR write it may or may not be (log 10). -/
def spmOperation (s : State) : Res State :=
  match s.launch.spmModel with
  | .refuse => .refused .spmUnmodelled
  | .device =>
    if s.pc.toNat < s.launch.device.bootStart ∨ s.spmJob.isSome = true then .next s
    else
      match s.spmWindow with
      | .closed => .next s
      | .armed => .next (spmAct s)
      | .open => .next (spmAct s)
      | .stale => .next (if spmActsDraw s.draws then spmAct s else closeSpm s)

/-- The word of program memory lies in the section that must not be read until re-enabled (R158, R271). -/
def State.sectionBusy (s : State) (wordAddr : Nat) : Bool :=
  (s.launch.spmModel == .device) && s.spmcr.getLsbD 6 && decide (wordAddr < s.launch.device.nrwwStart)

/-- LPM reads fuse or lock bits instead of program memory: BLBSET and SPMEN are in force, or may be (R271). -/
def State.readsLockBits (s : State) : Bool :=
  (s.launch.spmModel == .device) && (s.spmWindow != .closed) && s.spmcr.getLsbD 3 && s.spmcr.getLsbD 0

/-! ## Interrupt requests -/

/-- The vector number (R220). -/
def Irq.number : Irq → Nat
  | .int0 => 2
  | .int1 => 3
  | .int2 => 4
  | .timer2Comp => 5
  | .timer2Ovf => 6
  | .timer1Capt => 7
  | .timer1CompA => 8
  | .timer1CompB => 9
  | .timer1Ovf => 10
  | .timer0Comp => 11
  | .timer0Ovf => 12
  | .spiStc => 13
  | .usartRxc => 14
  | .usartUdre => 15
  | .usartTxc => 16
  | .adc => 17
  | .eeRdy => 18
  | .anaComp => 19
  | .twi => 20
  | .spmRdy => 21

/-- The sources in priority order: the lower the vector number, the higher the priority (R223). -/
def Irq.byPriority : List Irq :=
  [.int0, .int1, .int2, .timer2Comp, .timer2Ovf, .timer1Capt, .timer1CompA, .timer1CompB, .timer1Ovf, .timer0Comp,
   .timer0Ovf, .spiStc, .usartRxc, .usartUdre, .usartTxc, .adc, .eeRdy, .anaComp, .twi, .spmRdy]

/-- The handler address of vector `n`: `VECTOR_STRIDE * (n - 1)`, a word address (R221, D28). -/
def vectorAddr (d : Device) (n : Nat) : Nat := d.vectorStride * (n - 1)

/-- The sources with a low-level mode, in which the pin itself is the request: INT0 and INT1 (R226). -/
def Irq.hasLevel (v : Irq) : Bool := v == .int0 || v == .int1

/-- Entry to the handler clears the request flag (R226). -/
def Irq.clearedByEntry : Irq → Bool
  | .int0 | .int1 | .int2 => true
  | .timer2Comp | .timer2Ovf | .timer1Capt | .timer1CompA | .timer1CompB | .timer1Ovf | .timer0Comp | .timer0Ovf => true
  | .spiStc => true
  | .usartRxc => false
  | .usartUdre => false
  | .usartTxc => true
  | .adc => true
  | .eeRdy => false
  | .anaComp => true
  | .twi => false
  | .spmRdy => false

/-- The request of a source (R225, R226): its flag; for INT0 and INT1 also a level that the pin holds, which entry does
not clear (log 41); for EE_RDY the level EEWE = 0 (R244); for SPM_RDY the level SPMEN = 0. -/
def State.pending (s : State) (v : Irq) : Bool :=
  if v = .eeRdy ∧ s.launch.eepromModel = .device then !s.eeWrite.isSome
  else if v = .spmRdy ∧ s.launch.spmModel = .device then
    if s.spmJob.isSome then false
    else
      match s.spmWindow with
      | .closed => true
      | .armed => false
      | .open => false
      | .stale => spmReadyDraw s.draws
  else s.irqFlags.getLsbD v.number || (v.hasLevel && s.irqLevels.getLsbD v.number)

/-- The individual enable of a source (R225, R226): EERIE for EE_RDY (R244), SPMIE for SPM_RDY, else its enable bit. -/
def State.enabled (s : State) (v : Irq) : Bool :=
  if v = .eeRdy ∧ s.launch.eepromModel = .device then s.eerie
  else if v = .spmRdy ∧ s.launch.spmModel = .device then s.spmcr.getLsbD 7
  else s.irqEnables.getLsbD v.number

/-- The interrupt that can be taken at this boundary, if one can (R223, R225): I is 1, no hold-off is in force, and of
the enabled pending requests it has the lowest number, which is at most VECTOR_COUNT (R6). Under INTERRUPT_MODEL = none
there is never one (R231). -/
def State.takeable (s : State) : Option Irq :=
  if s.launch.interruptModel = .agent ∧ s.flag flagI = true ∧ s.holdoff = false then
    Irq.byPriority.find? (fun v => decide (v.number ≤ s.launch.device.vectorCount) && s.pending v && s.enabled v)
  else none

/-! ## Turns of the devices -/

/-- One bit of the request flags or the enable bits. -/
def setIrqBit (b : BitVec 22) (n : Nat) (x : Bool) : BitVec 22 :=
  if x then b ||| (1#22 <<< n) else b &&& ~~~(1#22 <<< n)

/-- What a device does in its turn (R13, D11). -/
def deviceEvent (e : DeviceEvent) (s : State) : State :=
  match e with
  | .eepromDone => eepromFinish s
  | .spmDone => spmFinish s
  | .raise v => { s with irqFlags := setIrqBit s.irqFlags v.number true }
  | .drop v => { s with irqFlags := setIrqBit s.irqFlags v.number false }
  | .level v on => { s with irqLevels := setIrqBit s.irqLevels v.number on }
  | .setEnable v on => { s with irqEnables := setIrqBit s.irqEnables v.number on }
  | .watchdogTick => { s with watchdog := s.watchdog + 1 }

/-- Between the two accesses of a read-modify-write a device may act (R61, D11): it does where the agenda says so
(log 35). -/
def midTurn (s : State) : State :=
  match s.agenda with
  | .mid e :: rest => deviceEvent e { s with agenda := rest }
  | _ => s

end Sys2Proof.Machine
end

