-- ==== Sys2Proof/Machine/Ops.lean ====
section
/-! DEFINITION. The named operations over memory and registers: the access primitives of 20_memory.md R56 to R59, the
stack (10_state.md R31), the entry of an interrupt (60_exceptions.md R229) and the return from one (R232), and reset
(70_reset_and_hazards.md R261, R263). -/

namespace Sys2Proof.Machine

open Config

/-! ## I/O space -/

/-- The I/O registers the model has (R34, R37), and all the others (R58). MCUCR is one of the others, of which besides
SE is kept for SLEEP (R212; log 7). -/
inductive IoReg where
  | sreg | sph | spl | rampz | eearh | eearl | eedr | eecr | mcucr | spmcr | unmodelled
  deriving DecidableEq, Repr

/-- The registers that the spec does not model: a read is a draw and every access is recorded (R37, R58, D12). -/
def IoReg.recorded (r : IoReg) : Bool := r == .mcucr || r == .unmodelled

/-- Which register an I/O address reaches (R34, R37, R58), by the launch parameters. Beyond IO_COUNT none is reached
(R6; log 39). MCUCR is told apart only where it decides about SLEEP (log 7). -/
def ioReg (l : Launch) (a : IoAddr) : IoReg :=
  let d := l.device
  if d.ioCount ≤ a.toNat then .unmodelled
  else if a = d.ioSreg then .sreg
  else if a = d.ioSph then .sph
  else if a = d.ioSpl then .spl
  else if d.ioRampz = some a then .rampz
  else if l.eepromModel = .device ∧ a = d.ioEearh then .eearh
  else if l.eepromModel = .device ∧ a = d.ioEearl then .eearl
  else if l.eepromModel = .device ∧ a = d.ioEedr then .eedr
  else if l.eepromModel = .device ∧ a = d.ioEecr then .eecr
  else if l.sleepMode = .mcucr ∧ a = d.ioMcucr then .mcucr
  else if l.spmModel = .device ∧ a = d.ioSpmcr then .spmcr
  else .unmodelled

/-- `IoRead(A)` (R58, R59, R240). A register the spec does not model reads as a free value and the read is recorded
(D12). -/
def ioRead (s : State) (a : IoAddr) : Byte × State :=
  match ioReg s.launch a with
  | .sreg => (s.sreg, s)
  | .sph => (highByte s.sp, s)
  | .spl => (lowByte s.sp, s)
  | .rampz => (s.rampz, s)
  | .eearh => (s.eearh, s)
  | .eearl => (s.eearl, s)
  | .eedr => (s.eedr, s)
  | .eecr => (s.eecr, s.tick)
  | .spmcr => (s.spmcrValue, s.tick)
  | .mcucr | .unmodelled =>
    (ioDraw s.draws a, { s.tick with ioEvents := .read a (ioDraw s.draws a) :: s.ioEvents })

/-- `IoWrite(A, v)` (R58, R59, R241 to R244). A write of a register the spec does not model is recorded (D12); one of
MCUCR besides decides what SLEEP does (R212; log 7). -/
def ioWrite (s : State) (a : IoAddr) (v : Byte) : Res State :=
  match ioReg s.launch a with
  | .sreg => writeSreg s v
  | .sph => .next (s.setSp (joinBytes v (lowByte s.sp)))
  | .spl => .next (s.setSp (joinBytes (highByte s.sp) v))
  | .rampz => .next (s.setRampz v)
  | .eearh => eepromRegWrite s { s with eearh := v &&& 0x03#8 }
  | .eearl => eepromRegWrite s { s with eearl := v }
  | .eedr => eepromRegWrite s { s with eedr := v }
  | .eecr => eecrWrite s v
  | .mcucr => .next { s with mcucr := v, ioEvents := .write a v :: s.ioEvents }
  | .spmcr => .next (spmcrWrite s v)
  | .unmodelled => .next { s with ioEvents := .write a v :: s.ioEvents }

/-! ## Data address space -/

/-- What a data address reaches (R51, R56), in the order of R56. -/
inductive DataPlace where
  | reg (i : Reg)
  | io (a : IoAddr)
  | sram (a : Nat)
  | nothing (a : Nat)
  deriving DecidableEq, Repr

/-- The dispatch of data addresses (R51, R56, R57). The address of a register that does not exist (R7) reaches
nothing. -/
def dataPlace (d : Device) (addr : Word) : DataPlace :=
  let a := addr.toNat
  if d.regsInDataSpace = true ∧ a ≤ 0x1F then
    if d.firstReg ≤ a then .reg (BitVec.ofNat 5 a) else .nothing a
  else if d.ioBase ≤ a ∧ a < d.ioBase + d.ioCount then .io (BitVec.ofNat 6 (a - d.ioBase))
  else if d.sramStart ≤ a ∧ a ≤ d.ramEnd then .sram a
  else .nothing a

/-- `MemRead(addr, 1)` (R56). -/
def memRead (s : State) (addr : Word) : Res (Byte × State) :=
  match dataPlace s.launch.device addr with
  | .reg i => .next (s.reg i, s)
  | .io a => .next (ioRead s a)
  | .sram a =>
    match s.mem.read .sram a with
    | some v => .next (v, s)
    | none => .fault (.readUnwritten a)
  | .nothing a => .refused (.unimplementedDataAddress a)

/-- `MemWrite(addr, 1, v)` (R57). -/
def memWrite (s : State) (addr : Word) (v : Byte) : Res State :=
  match dataPlace s.launch.device addr with
  | .reg i => .next (s.setReg i v)
  | .io a => ioWrite s a v
  | .sram a => .next { s with mem := s.mem.write .sram a v }
  | .nothing a => .refused (.unimplementedDataAddress a)

/-! ## Program memory as data -/

/-- `ProgByte(ba)` for ELPM (R54, R157): beyond FLASH_WORDS it is refused (R64, R150); in a section that must not be
read it is a free value (R271; log 13). -/
def progRead (s : State) (ba : Nat) : Res (Byte × State) :=
  if s.launch.device.flashWords ≤ ba / 2 then .refused (.unimplementedProgramAddress ba)
  else if s.sectionBusy (ba / 2) = true then .next (progDraw s.draws ba, s.tick)
  else .next (s.mem.byte .flash ba, s)

/-- `ProgByte(ba)` for LPM (R150): as `progRead`, but next to a setting of BLBSET and SPMEN it reads fuse or lock bits,
whose values the spec does not give (R271; log 14). -/
def lpmRead (s : State) (ba : Nat) : Res (Byte × State) :=
  if s.launch.device.flashWords ≤ ba / 2 then .refused (.unimplementedProgramAddress ba)
  else if s.readsLockBits = true then .next (progDraw s.draws ba, s.tick)
  else progRead s ba

/-! ## Stack -/

/-- Push a byte: store at SP, then decrement SP (R31, R162). -/
def pushByte (s : State) (v : Byte) : Res State :=
  andThen (memWrite s s.sp v) fun t => .next (t.setSp (t.sp - 1))

/-- Pop a byte: increment SP, then load from SP (R31, R163). -/
def popByte (s : State) : Res (Byte × State) :=
  let t := s.setSp (s.sp + 1)
  memRead t t.sp

/-! ## Taking an interrupt, and returning from one -/

/-- The timed unlock bits when an interrupt is entered: the one instruction after the setting is no longer the next
(R241, log 16). -/
def Window.interrupted : Window → Window
  | .closed => .closed
  | .armed => .stale
  | .open => .stale
  | .stale => .stale

/-- The last act of R229: the request flag, if entry clears it; awake; the pc at the vector. Where the pc had wrapped
past the top of the address space the wrapped pc is the return address and the run goes on at the vector: DESIGN CHOICE,
R26 and R275 speak of the next fetch only (log 44). -/
def State.atVector (s : State) (v : Irq) : State :=
  { s with
    irqFlags := if v.clearedByEntry then setIrqBit s.irqFlags v.number false else s.irqFlags
    asleep := false
    pc := BitVec.ofNat 16 (vectorAddr s.launch.device v.number % 2 ^ s.launch.device.pcBits)
    pcWrapped := false
    eeWindow := s.eeWindow.interrupted
    spmWindow := s.spmWindow.interrupted }

/-- The first act of R229: I is cleared. From here on no timed unlock bit is known to be 1, so that a push is not the
one instruction of R241 (D22; log 16). -/
def State.enterHandler (s : State) : State :=
  { s.setFlag flagI false with
    eeWindow := s.eeWindow.interrupted
    spmWindow := s.spmWindow.interrupted }

/-- Entry to the handler of a vector (R229): I is cleared; the return address is pushed, low byte first; nothing else
is saved. `pc` is the address of the next instruction of the interrupted program, less than 2^PC_BITS. -/
def enterInterrupt (v : Irq) (s : State) : Res State :=
  andThen (pushByte s.enterHandler (lowByte s.pc)) fun t =>
    andThen (pushByte t (highByte s.pc)) fun u => .next (u.atVector v)

/-- Return from an interrupt (R232): the pc is popped, high byte first; I is set; the hold-off is in force. It is the
effect of RETI, which is outside the 74 forms (R5): no instruction of the model performs it. -/
def returnFromInterrupt (s : State) : Res State :=
  andThen (popByte s) fun hi =>
    andThen (popByte hi.2) fun lo =>
      .next
        { lo.2.setFlag flagI true with
          pc := BitVec.ofNat 16 ((joinBytes hi.1 lo.1).toNat % 2 ^ lo.2.launch.device.pcBits)
          pcWrapped := false
          holdoff := true }

/-! ## Reset -/

/-- Whether a cause resets the chip now: the watchdog only when it is enabled and has counted since it was cleared
(R213; log 24). -/
def State.resets (s : State) (c : ResetCause) : Bool :=
  match c with
  | .watchdog => s.launch.watchdogEnabled && decide (0 < s.watchdog)
  | .pin | .powerOn | .brownOut | .jtag => true

/-- Memory after a reset (R261, R262, R263): program memory and EEPROM are kept, SRAM except after power-on; what an
operation in progress was writing holds free values (log 23). -/
def memAfterReset (c : ResetCause) (s : State) : Memory :=
  let m1 : Memory := if c = .powerOn then s.mem.setCells .sram [] else s.mem
  let m2 : Memory :=
    match s.eeWrite with
    | some w => m1.write .eeprom w.addr (interruptedByte s.draws)
    | none => m1
  let m3 : Memory :=
    match s.spmJob with
    | some (.erase base) => m2.writeRun .flash base (fun i => progDraw s.draws (base + i)) (pageBytes s.launch.device)
    | some (.write base) => m2.writeRun .flash base (fun i => progDraw s.draws (base + i)) (pageBytes s.launch.device)
    | none => m2
  m3.setCells .pageBuffer []

/-- Reset in mid-run (R261, R262, R263): the pc at vector 1, SREG, SP and RAMPZ as R41 says; what R41 leaves unspecified
is a free value (log 23); nothing is saved. The watchdog counter is 0 afterwards: DESIGN CHOICE, no rule gives it
(log 24). -/
def takeReset (c : ResetCause) (s : State) : State :=
  if s.resets c = true then
    { State.reset with
      regs := Vector.ofFn fun i => resetReg s.draws i.val
      mem := memAfterReset c s
      eearh := highByte (resetEear s.draws) &&& 0x03#8
      eearl := lowByte (resetEear s.draws)
      eeWrite :=
        match s.eeWrite with
        | some w => if resetEewe s.draws then some { w with value := interruptedByte s.draws } else none
        | none => none
      lockBits := s.lockBits
      irqLevels := s.irqLevels
      watchdog := 0
      ioEvents := s.ioEvents
      agenda := s.agenda
      draws := s.draws + 1
      launch := s.launch }
  else s

end Sys2Proof.Machine
end

