-- ==== Sys2Proof/Machine/Operands.lean ====
section
/-! DEFINITION. The operand forms: direct, indirect, post-increment, pre-decrement and displacement addresses of loads
and stores (R110, R127, R130, R144), program-memory addresses (R150, R157), and read-modify-write of an I/O register
(R61, R179). Each answers the state before the end of the instruction, which `retire` adds. -/

namespace Sys2Proof.Machine

open Config

/-- The end of an instruction of `n` words whose effect may stop. -/
def finish (n : Nat) (r : Res State) : Res State := andThen r fun t => .next (retire n t)

/-! ## Addresses -/

/-- `Y + zext_16(q)`, modulo 65536 (R110(d), R125; log 45). -/
def State.dispAddr (s : State) (p : Ptr) (q : Disp) : Word := s.dataPtr p + q.setWidth 16

/-- The data address of a one-word LDS or STS (R115, R132). -/
def directAddr (k : Byte) : Word := k.setWidth 16

/-- The register is one half of the pointer (R127, R144). -/
def Ptr.has (p : Ptr) (r : Reg) : Bool := r == p.lo || r == p.hi

/-- The data address is that of one of the pointer's own registers (R127). -/
def State.hitsPtr (s : State) (p : Ptr) (addr : Word) : Bool :=
  s.launch.device.regsInDataSpace && (addr == p.lo.setWidth 16 || addr == p.hi.setWidth 16)

/-! ## Loads -/

/-- `x[d] <- MemRead(addr, 1)` (R114 to R116, R119, R122, R125, R126). -/
def loadAt (d : Reg) (addr : Word) (s : State) : Res State :=
  andThen (memRead s addr) fun r => .next (r.2.setReg d r.1)

/-- `a = X; v = MemRead(a, 1); X <- a + 1; x[d] <- v` (R117, R120, R123); undefined combinations fault (R127). -/
def loadInc (p : Ptr) (d : Reg) (s : State) : Res State :=
  if p.has d = true ∨ s.hitsPtr p (s.dataPtr p) = true then .fault .undefinedOperandCombination
  else andThen (memRead s (s.dataPtr p)) fun r => .next ((r.2.setDataPtr p (s.movedPtr p 1)).setReg d r.1)

/-- `a = X - 1; X <- a; x[d] <- MemRead(a, 1)` (R118, R121, R124); undefined combinations fault (R127). -/
def loadDec (p : Ptr) (d : Reg) (s : State) : Res State :=
  if p.has d = true ∨ s.hitsPtr p (s.movedPtr p (-1)) = true then .fault .undefinedOperandCombination
  else loadAt d (s.movedPtr p (-1)) (s.setDataPtr p (s.movedPtr p (-1)))

/-! ## Stores -/

/-- `MemWrite(addr, 1, x[r])` (R131 to R133, R136, R139, R140, R143). -/
def storeAt (r : Reg) (addr : Word) (s : State) : Res State := memWrite s addr (s.reg r)

/-- `a = X; MemWrite(a, 1, x[r]); X <- a + 1` (R134, R137, R141); undefined combinations fault (R144). -/
def storeInc (p : Ptr) (r : Reg) (s : State) : Res State :=
  if p.has r = true ∨ s.hitsPtr p (s.dataPtr p) = true then .fault .undefinedOperandCombination
  else andThen (storeAt r (s.dataPtr p) s) fun t => .next (t.setDataPtr p (s.movedPtr p 1))

/-- `a = X - 1; X <- a; MemWrite(a, 1, x[r])` (R135, R138, R142); undefined combinations fault (R144). -/
def storeDec (p : Ptr) (r : Reg) (s : State) : Res State :=
  if p.has r = true ∨ s.hitsPtr p (s.movedPtr p (-1)) = true then .fault .undefinedOperandCombination
  else storeAt r (s.movedPtr p (-1)) (s.setDataPtr p (s.movedPtr p (-1)))

/-! ## Program memory -/

/-- `x[d] <- ProgByte(Z)` (R151, R152). -/
def loadProg (d : Reg) (s : State) : Res State :=
  andThen (lpmRead s (s.ptr .Z).toNat) fun r => .next (r.2.setReg d r.1)

/-- `a = Z; v = ProgByte(a); Z <- a + 1; x[d] <- v` (R153): the increment is on Z alone. -/
def loadProgInc (d : Reg) (s : State) : Res State :=
  if Ptr.has .Z d = true then .fault .undefinedOperandCombination
  else andThen (lpmRead s (s.ptr .Z).toNat) fun r => .next ((r.2.setPtr .Z (s.ptr .Z + 1)).setReg d r.1)

/-- `x[d] <- ProgByte(RAMPZ : Z)` (R154, R155). -/
def loadProgExt (d : Reg) (s : State) : Res State :=
  andThen (progRead s s.rampzZ.toNat) fun r => .next (r.2.setReg d r.1)

/-- `a = RAMPZ : Z; v = ProgByte(a); (RAMPZ : Z) <- a + 1; x[d] <- v` (R156): the increment is on all 24 bits. -/
def loadProgExtInc (d : Reg) (s : State) : Res State :=
  if Ptr.has .Z d = true then .fault .undefinedOperandCombination
  else andThen (progRead s s.rampzZ.toNat) fun r => .next ((r.2.setRampzZ (s.rampzZ + 1)).setReg d r.1)

/-! ## Read-modify-write -/

/-- One bit of an I/O register (R179, R180): a read, then a write of the whole byte, between which a device may act
(R61; log 35). -/
def changeIoBit (a : IoAddr) (b : BitNum) (x : Bool) (s : State) : Res State :=
  let r := ioRead s a
  ioWrite (midTurn r.2) a (setBit r.1 b x)

/-- `t = MemRead(addr, 1); MemWrite(addr, 1, x[d]); x[d] <- t` (R164). -/
def exchange (d : Reg) (addr : Word) (s : State) : Res State :=
  andThen (memRead s addr) fun r =>
    andThen (memWrite (midTurn r.2) addr (s.reg d)) fun t => .next (t.setReg d r.1)

end Sys2Proof.Machine
end

