-- ==== Sys2Proof/Machine/BitOps.lean ====
section
/-! DEFINITION. The meanings of the bit operations and bit tests (43_bit_and_bit_test.md R170 to R200). -/

namespace Sys2Proof.Machine

open Config

/-- LSL Rd (R171). -/
def execLsl (d : Reg) (s : State) : Res State := shiftLeft d (lslResult (s.reg d)) s

/-- LSR Rd (R172). -/
def execLsr (d : Reg) (s : State) : Res State := shiftRight d (lsrResult (s.reg d)) s

/-- ROL Rd, through the old Carry (R173). -/
def execRol (d : Reg) (s : State) : Res State := shiftLeft d (rolResult (s.reg d) (s.flag flagC)) s

/-- ROR Rd, through the old Carry (R174). -/
def execRor (d : Reg) (s : State) : Res State := shiftRight d (rorResult (s.reg d) (s.flag flagC)) s

/-- ASR Rd (R175). -/
def execAsr (d : Reg) (s : State) : Res State := shiftRight d (asrResult (s.reg d)) s

/-- SWAP Rd: the nibbles are exchanged, no flag changes (R176). -/
def execSwap (d : Reg) (s : State) : Res State := .next (retire 1 (s.setReg d (swapResult (s.reg d))))

/-- BSET s: `SREG[s] <- 1` (R177). -/
def execBset (b : BitNum) (s : State) : Res State := setSregBit b s

/-- BCLR s: `SREG[s] <- 0` (R178). -/
def execBclr (b : BitNum) (s : State) : Res State := clearSregBit b s

/-- SBI A,b: `IoWrite(A, IoRead(A) | (1 << b))` (R179). -/
def execSbi (a : IoAddr) (b : BitNum) (s : State) : Res State := finish 1 (changeIoBit a b true s)

/-- CBI A,b: `IoWrite(A, IoRead(A) & ~(1 << b))` (R180). -/
def execCbi (a : IoAddr) (b : BitNum) (s : State) : Res State := finish 1 (changeIoBit a b false s)

/-- BST Rr,b: `SREG.T <- x[r][b]` (R181). -/
def execBst (r : Reg) (b : BitNum) (s : State) : Res State :=
  .next (retire 1 (s.setFlag flagT ((s.reg r).getLsbD b.toNat)))

/-- BLD Rd,b: bit b of Rd is T, the other seven are kept (R182). -/
def execBld (d : Reg) (b : BitNum) (s : State) : Res State :=
  .next (retire 1 (s.setReg d (setBit (s.reg d) b (s.flag flagT))))

/-- SEC: `SREG.C <- 1` (R183). -/
def execSec (s : State) : Res State := setSregBit flagC s

/-- CLC: `SREG.C <- 0` (R184). -/
def execClc (s : State) : Res State := clearSregBit flagC s

/-- SEN: `SREG.N <- 1` (R185). -/
def execSen (s : State) : Res State := setSregBit flagN s

/-- CLN: `SREG.N <- 0` (R186). -/
def execCln (s : State) : Res State := clearSregBit flagN s

/-- SEZ: `SREG.Z <- 1` (R187). -/
def execSez (s : State) : Res State := setSregBit flagZ s

/-- CLZ: `SREG.Z <- 0` (R188). -/
def execClz (s : State) : Res State := clearSregBit flagZ s

/-- SEI: `SREG.I <- 1` and the hold-off begins (R189). -/
def execSei (s : State) : Res State := setSregBit flagI s

/-- CLI: `SREG.I <- 0` (R190). -/
def execCli (s : State) : Res State := clearSregBit flagI s

/-- SES: `SREG.S <- 1` (R191). -/
def execSes (s : State) : Res State := setSregBit flagS s

/-- CLS: `SREG.S <- 0` (R192). -/
def execCls (s : State) : Res State := clearSregBit flagS s

/-- SEV: `SREG.V <- 1` (R193). -/
def execSev (s : State) : Res State := setSregBit flagV s

/-- CLV: `SREG.V <- 0` (R194). -/
def execClv (s : State) : Res State := clearSregBit flagV s

/-- SET: `SREG.T <- 1` (R195). -/
def execSetT (s : State) : Res State := setSregBit flagT s

/-- CLT: `SREG.T <- 0` (R196). -/
def execClt (s : State) : Res State := clearSregBit flagT s

/-- SEH: `SREG.H <- 1` (R197). -/
def execSeh (s : State) : Res State := setSregBit flagH s

/-- CLH: `SREG.H <- 0` (R198). -/
def execClh (s : State) : Res State := clearSregBit flagH s

end Sys2Proof.Machine
end

