-- ==== Sys2Proof/Machine/Control.lean ====
section
/-! DEFINITION. The meanings of the control operations (44_mcu_control.md R210 to R213). -/

namespace Sys2Proof.Machine

open Config

/-- BREAK, by BREAK_MODE (R210): with the debug system disabled it is NOP. -/
def execBrk (s : State) : Res State :=
  match s.launch.breakMode with
  | .nop => .next (retire 1 s)
  | .halt => .fault .debugHalt
  | .refuse => .refused .breakNotModelled

/-- NOP: `pc <- pc + 1` (R211). -/
def execNop (s : State) : Res State := .next (retire 1 s)

/-- SLEEP (R212): with MCUCR.SE = 1 the core sleeps, else only the pc advances. -/
def execSleep (s : State) : Res State :=
  match s.launch.sleepMode with
  | .mcucr => if s.mcucr.getLsbD 7 = true then .next { retire 1 s with asleep := true } else .next (retire 1 s)
  | .nop => .next (retire 1 s)
  | .wait => .next { retire 1 s with asleep := true }
  | .refuse => .refused .sleepNotModelled

/-- WDR: `watchdog_counter <- 0; pc <- pc + 1` (R213). -/
def execWdr (s : State) : Res State := .next { retire 1 s with watchdog := 0 }

end Sys2Proof.Machine
end

