-- ==== Sys2Proof/Machine/Load.lean ====
section
/-! DEFINITION. The meanings of the register copies and loads (40_data_transfer_register_and_load.md R110 to R127). -/

namespace Sys2Proof.Machine

open Config

/-- MOV Rd,Rr: `x[d] <- x[r]` (R111). -/
def execMov (d r : Reg) (s : State) : Res State := .next (retire 1 (s.setReg d (s.reg r)))

/-- MOVW Rd,Rr: both source bytes are read before either destination byte is written (R112). -/
def execMovw (d r : Reg) (s : State) : Res State :=
  .next (retire 1 ((s.setReg d (s.reg r)).setReg (d + 1) (s.reg (r + 1))))

/-- LDI Rd,K: `x[d] <- K` (R113). -/
def execLdi (d : Reg) (k : Byte) (s : State) : Res State := .next (retire 1 (s.setReg d k))

/-- LDS Rd,k, two words: `x[d] <- MemRead(k, 1); pc <- pc + 2` (R114). -/
def execLds (d : Reg) (k : Word) (s : State) : Res State := finish 2 (loadAt d k s)

/-- LDS Rd,k, one word: `x[d] <- MemRead(zext_16(addr), 1)` (R115). -/
def execLds16 (d : Reg) (k : Byte) (s : State) : Res State := finish 1 (loadAt d (directAddr k) s)

/-- LD Rd,X: `x[d] <- MemRead(X, 1)` (R116). -/
def execLdX (d : Reg) (s : State) : Res State := finish 1 (loadAt d (s.dataPtr .X) s)

/-- LD Rd,X+: load, then increment X (R117). -/
def execLdXInc (d : Reg) (s : State) : Res State := finish 1 (loadInc .X d s)

/-- LD Rd,-X: decrement X, then load (R118). -/
def execLdXDec (d : Reg) (s : State) : Res State := finish 1 (loadDec .X d s)

/-- LD Rd,Y: `x[d] <- MemRead(Y, 1)` (R119). -/
def execLdY (d : Reg) (s : State) : Res State := finish 1 (loadAt d (s.dataPtr .Y) s)

/-- LD Rd,Y+: load, then increment Y (R120). -/
def execLdYInc (d : Reg) (s : State) : Res State := finish 1 (loadInc .Y d s)

/-- LD Rd,-Y: decrement Y, then load (R121). -/
def execLdYDec (d : Reg) (s : State) : Res State := finish 1 (loadDec .Y d s)

/-- LD Rd,Z: `x[d] <- MemRead(Z, 1)` (R122). -/
def execLdZ (d : Reg) (s : State) : Res State := finish 1 (loadAt d (s.dataPtr .Z) s)

/-- LD Rd,Z+: load, then increment Z (R123). -/
def execLdZInc (d : Reg) (s : State) : Res State := finish 1 (loadInc .Z d s)

/-- LD Rd,-Z: decrement Z, then load (R124). -/
def execLdZDec (d : Reg) (s : State) : Res State := finish 1 (loadDec .Z d s)

/-- LDD Rd,Y+q: `x[d] <- MemRead(Y + zext_16(q), 1)` (R125). -/
def execLddY (d : Reg) (q : Disp) (s : State) : Res State := finish 1 (loadAt d (s.dispAddr .Y q) s)

/-- LDD Rd,Z+q: `x[d] <- MemRead(Z + zext_16(q), 1)` (R126). -/
def execLddZ (d : Reg) (q : Disp) (s : State) : Res State := finish 1 (loadAt d (s.dispAddr .Z q) s)

end Sys2Proof.Machine
end

