-- ==== Sys2Proof/Machine/ProgIoStack.lean ====
section
/-! DEFINITION. The meanings of the program memory, I/O, stack and exchange instructions
(42_data_transfer_progmem_io_stack.md R150 to R164). -/

namespace Sys2Proof.Machine

open Config

/-- LPM: `x[0] <- ProgByte(Z)` (R151). -/
def execLpm (s : State) : Res State := finish 1 (loadProg 0 s)

/-- LPM Rd,Z: `x[d] <- ProgByte(Z)` (R152). -/
def execLpmZ (d : Reg) (s : State) : Res State := finish 1 (loadProg d s)

/-- LPM Rd,Z+: load, then increment Z; d = 30, 31 is undefined and faults (R153). -/
def execLpmZInc (d : Reg) (s : State) : Res State := finish 1 (loadProgInc d s)

/-- ELPM: `x[0] <- ProgByte(RAMPZ : Z)` (R154). -/
def execElpm (s : State) : Res State := finish 1 (loadProgExt 0 s)

/-- ELPM Rd,Z: `x[d] <- ProgByte(RAMPZ : Z)` (R155). -/
def execElpmZ (d : Reg) (s : State) : Res State := finish 1 (loadProgExt d s)

/-- ELPM Rd,Z+: load, then increment all 24 bits of RAMPZ : Z; d = 30, 31 is undefined and faults (R156). -/
def execElpmZInc (d : Reg) (s : State) : Res State := finish 1 (loadProgExtInc d s)

/-- SPM: the operation SPMCR selects, with R1:R0 and Z (R158). -/
def execSpm (s : State) : Res State := finish 1 (spmOperation s)

/-- SPM Z+: as SPM, then `Z <- Z + 2` (R159). Z moves on also where SPM takes no effect: DESIGN CHOICE, R159's operation
says so and its corner case, "as rule R158", may be read otherwise (log 47). -/
def execSpmZInc (s : State) : Res State :=
  finish 1 (andThen (spmOperation s) fun t => .next (t.setPtr .Z (t.ptr .Z + 2)))

/-- IN Rd,A: `x[d] <- IoRead(A)` (R160). -/
def execInp (d : Reg) (a : IoAddr) (s : State) : Res State :=
  .next (retire 1 ((ioRead s a).2.setReg d (ioRead s a).1))

/-- OUT A,Rr: `IoWrite(A, x[r])` (R161). -/
def execOut (a : IoAddr) (r : Reg) (s : State) : Res State := finish 1 (ioWrite s a (s.reg r))

/-- PUSH Rr: store at SP, then decrement SP (R162). -/
def execPush (r : Reg) (s : State) : Res State := finish 1 (pushByte s (s.reg r))

/-- POP Rd: increment SP, then load from SP (R163). -/
def execPop (d : Reg) (s : State) : Res State :=
  finish 1 (andThen (popByte s) fun r => .next (r.2.setReg d r.1))

/-- XCH Z,Rd: exchange Rd with the data-memory byte at Z; d = 30, 31 faults (R164). -/
def execXch (d : Reg) (s : State) : Res State :=
  if Ptr.has .Z d = true then .fault .undefinedOperandCombination else finish 1 (exchange d (s.dataPtr .Z) s)

end Sys2Proof.Machine
end

