-- ==== Sys2Proof/Machine/Store.lean ====
section
/-! DEFINITION. The meanings of the stores to data memory (41_data_transfer_store.md R130 to R144). -/

namespace Sys2Proof.Machine

open Config

/-- STS k,Rr, two words: `MemWrite(k, 1, x[r]); pc <- pc + 2` (R131). -/
def execSts (k : Word) (r : Reg) (s : State) : Res State := finish 2 (storeAt r k s)

/-- STS k,Rr, one word: `MemWrite(zext_16(addr), 1, x[r])` (R132). -/
def execSts16 (k : Byte) (r : Reg) (s : State) : Res State := finish 1 (storeAt r (directAddr k) s)

/-- ST X,Rr: `MemWrite(X, 1, x[r])` (R133). -/
def execStX (r : Reg) (s : State) : Res State := finish 1 (storeAt r (s.dataPtr .X) s)

/-- ST X+,Rr: store, then increment X (R134). -/
def execStXInc (r : Reg) (s : State) : Res State := finish 1 (storeInc .X r s)

/-- ST -X,Rr: decrement X, then store (R135). -/
def execStXDec (r : Reg) (s : State) : Res State := finish 1 (storeDec .X r s)

/-- ST Y,Rr: `MemWrite(Y, 1, x[r])` (R136). -/
def execStY (r : Reg) (s : State) : Res State := finish 1 (storeAt r (s.dataPtr .Y) s)

/-- ST Y+,Rr: store, then increment Y (R137). -/
def execStYInc (r : Reg) (s : State) : Res State := finish 1 (storeInc .Y r s)

/-- ST -Y,Rr: decrement Y, then store (R138). -/
def execStYDec (r : Reg) (s : State) : Res State := finish 1 (storeDec .Y r s)

/-- STD Y+q,Rr: `MemWrite(Y + zext_16(q), 1, x[r])` (R139). -/
def execStdY (q : Disp) (r : Reg) (s : State) : Res State := finish 1 (storeAt r (s.dispAddr .Y q) s)

/-- ST Z,Rr: `MemWrite(Z, 1, x[r])` (R140). -/
def execStZ (r : Reg) (s : State) : Res State := finish 1 (storeAt r (s.dataPtr .Z) s)

/-- ST Z+,Rr: store, then increment Z (R141). -/
def execStZInc (r : Reg) (s : State) : Res State := finish 1 (storeInc .Z r s)

/-- ST -Z,Rr: decrement Z, then store (R142). -/
def execStZDec (r : Reg) (s : State) : Res State := finish 1 (storeDec .Z r s)

/-- STD Z+q,Rr: `MemWrite(Z + zext_16(q), 1, x[r])` (R143). -/
def execStdZ (q : Disp) (r : Reg) (s : State) : Res State := finish 1 (storeAt r (s.dispAddr .Z q) s)

end Sys2Proof.Machine
end

