-- ==== Sys2Proof/Syntax.lean ====
section
/-! DEFINITION. The instructions: one constructor per row of spec/opcode_table.json, in the table's order
(30_encoding.md R96). Register operands are register numbers, never encoding fields: the decoder has already added
16 or doubled the field (R97). -/

namespace Sys2Proof

/-- The 74 instruction forms of 30_encoding.md R96. The docstrings give the row and the canonical assembler form. -/
inductive Instr where
  /-- Row 1, `MOV Rd,Rr` (R111). -/
  | mov (d r : Reg)
  /-- Row 2, `MOVW Rd,Rr` (R112). -/
  | movw (d r : Reg)
  /-- Row 3, `LDI Rd,K` (R113). -/
  | ldi (d : Reg) (k : Byte)
  /-- Row 4, `LDS Rd,k`, two words (R114). -/
  | lds (d : Reg) (k : Word)
  /-- Row 5, `LDS Rd,k`, one word (R115). -/
  | lds16 (d : Reg) (k : Byte)
  /-- Row 6, `LD Rd,X` (R116). -/
  | ldX (d : Reg)
  /-- Row 7, `LD Rd,X+` (R117). -/
  | ldXInc (d : Reg)
  /-- Row 8, `LD Rd,-X` (R118). -/
  | ldXDec (d : Reg)
  /-- Row 9, `LD Rd,Y` (R119). -/
  | ldY (d : Reg)
  /-- Row 10, `LD Rd,Y+` (R120). -/
  | ldYInc (d : Reg)
  /-- Row 11, `LD Rd,-Y` (R121). -/
  | ldYDec (d : Reg)
  /-- Row 12, `LD Rd,Z` (R122). -/
  | ldZ (d : Reg)
  /-- Row 13, `LD Rd,Z+` (R123). -/
  | ldZInc (d : Reg)
  /-- Row 14, `LD Rd,-Z` (R124). -/
  | ldZDec (d : Reg)
  /-- Row 15, `LDD Rd,Y+q` (R125). -/
  | lddY (d : Reg) (q : Disp)
  /-- Row 16, `LDD Rd,Z+q` (R126). -/
  | lddZ (d : Reg) (q : Disp)
  /-- Row 17, `STS k,Rr`, two words (R131). -/
  | sts (k : Word) (r : Reg)
  /-- Row 18, `STS k,Rr`, one word (R132). -/
  | sts16 (k : Byte) (r : Reg)
  /-- Row 19, `ST X,Rr` (R133). -/
  | stX (r : Reg)
  /-- Row 20, `ST X+,Rr` (R134). -/
  | stXInc (r : Reg)
  /-- Row 21, `ST -X,Rr` (R135). -/
  | stXDec (r : Reg)
  /-- Row 22, `ST Y,Rr` (R136). -/
  | stY (r : Reg)
  /-- Row 23, `ST Y+,Rr` (R137). -/
  | stYInc (r : Reg)
  /-- Row 24, `ST -Y,Rr` (R138). -/
  | stYDec (r : Reg)
  /-- Row 25, `STD Y+q,Rr` (R139). -/
  | stdY (q : Disp) (r : Reg)
  /-- Row 26, `ST Z,Rr` (R140). -/
  | stZ (r : Reg)
  /-- Row 27, `ST Z+,Rr` (R141). -/
  | stZInc (r : Reg)
  /-- Row 28, `ST -Z,Rr` (R142). -/
  | stZDec (r : Reg)
  /-- Row 29, `STD Z+q,Rr` (R143). -/
  | stdZ (q : Disp) (r : Reg)
  /-- Row 30, `LPM` (R151). -/
  | lpm
  /-- Row 31, `LPM Rd,Z` (R152). -/
  | lpmZ (d : Reg)
  /-- Row 32, `LPM Rd,Z+` (R153). -/
  | lpmZInc (d : Reg)
  /-- Row 33, `ELPM` (R154). -/
  | elpm
  /-- Row 34, `ELPM Rd,Z` (R155). -/
  | elpmZ (d : Reg)
  /-- Row 35, `ELPM Rd,Z+` (R156). -/
  | elpmZInc (d : Reg)
  /-- Row 36, `SPM` (R158). -/
  | spm
  /-- Row 37, `SPM Z+` (R159). -/
  | spmZInc
  /-- Row 38, `IN Rd,A` (R160). -/
  | inp (d : Reg) (a : IoAddr)
  /-- Row 39, `OUT A,Rr` (R161). -/
  | out (a : IoAddr) (r : Reg)
  /-- Row 40, `PUSH Rr` (R162). -/
  | push (r : Reg)
  /-- Row 41, `POP Rd` (R163). -/
  | pop (d : Reg)
  /-- Row 42, `XCH Z,Rd` (R164). -/
  | xch (d : Reg)
  /-- Row 43, `LSL Rd` (R171). -/
  | lsl (d : Reg)
  /-- Row 44, `LSR Rd` (R172). -/
  | lsr (d : Reg)
  /-- Row 45, `ROL Rd` (R173). -/
  | rol (d : Reg)
  /-- Row 46, `ROR Rd` (R174). -/
  | ror (d : Reg)
  /-- Row 47, `ASR Rd` (R175). -/
  | asr (d : Reg)
  /-- Row 48, `SWAP Rd` (R176). -/
  | swap (d : Reg)
  /-- Row 49, `BSET s` (R177). -/
  | bset (s : BitNum)
  /-- Row 50, `BCLR s` (R178). -/
  | bclr (s : BitNum)
  /-- Row 51, `SBI A,b` (R179). -/
  | sbi (a : IoAddr) (b : BitNum)
  /-- Row 52, `CBI A,b` (R180). -/
  | cbi (a : IoAddr) (b : BitNum)
  /-- Row 53, `BST Rr,b` (R181). -/
  | bst (r : Reg) (b : BitNum)
  /-- Row 54, `BLD Rd,b` (R182). -/
  | bld (d : Reg) (b : BitNum)
  /-- Row 55, `SEC` (R183). -/
  | sec
  /-- Row 56, `CLC` (R184). -/
  | clc
  /-- Row 57, `SEN` (R185). -/
  | sen
  /-- Row 58, `CLN` (R186). -/
  | cln
  /-- Row 59, `SEZ` (R187). -/
  | sez
  /-- Row 60, `CLZ` (R188). -/
  | clz
  /-- Row 61, `SEI` (R189). -/
  | sei
  /-- Row 62, `CLI` (R190). -/
  | cli
  /-- Row 63, `SES` (R191). -/
  | ses
  /-- Row 64, `CLS` (R192). -/
  | cls
  /-- Row 65, `SEV` (R193). -/
  | sev
  /-- Row 66, `CLV` (R194). -/
  | clv
  /-- Row 67, `SET` (R195). -/
  | setT
  /-- Row 68, `CLT` (R196). -/
  | clt
  /-- Row 69, `SEH` (R197). -/
  | seh
  /-- Row 70, `CLH` (R198). -/
  | clh
  /-- Row 71, `BREAK` (R210). -/
  | brk
  /-- Row 72, `NOP` (R211). -/
  | nop
  /-- Row 73, `SLEEP` (R212). -/
  | sleep
  /-- Row 74, `WDR` (R213). -/
  | wdr
  deriving DecidableEq, Repr

end Sys2Proof
end

