-- ==== Sys2Proof/WellFormed.lean ====
section
/-! DEFINITION. Which instructions are well formed on a device: the operand ranges of 10_state.md R21 and
30_encoding.md R97, and the feature parameters of 00_scope.md R7, R8. -/

namespace Sys2Proof

open Config

/-- LDI and the one-word LDS and STS name only R16..R31 (R21). -/
def upperReg (d : Reg) : Bool := decide (16 ≤ d.toNat)

/-- MOVW names only even registers (R21, R23). -/
def evenReg (d : Reg) : Bool := d.toNat % 2 == 0

/-- SBI and CBI reach only I/O addresses 0..31 (R179). -/
def lowIo (a : IoAddr) : Bool := decide (a.toNat < 32)

/-- The one-word LDS and STS reach only data addresses 0x40..0xBF (R90). -/
def directAddr16 (k : Byte) : Bool := decide (0x40 ≤ k.toNat) && decide (k.toNat ≤ 0xBF)

/-- The operand ranges of an instruction (R97). -/
def Instr.operandsOk : Instr → Bool
  | .movw d r => evenReg d && evenReg r
  | .ldi d _ => upperReg d
  | .lds16 d k => upperReg d && directAddr16 k
  | .sts16 k r => upperReg r && directAddr16 k
  | .sbi a _ => lowIo a
  | .cbi a _ => lowIo a
  | .mov _ _ | .lds _ _ | .ldX _ | .ldXInc _ | .ldXDec _ | .ldY _ | .ldYInc _ | .ldYDec _ | .ldZ _ | .ldZInc _
  | .ldZDec _ | .lddY _ _ | .lddZ _ _ | .sts _ _ | .stX _ | .stXInc _ | .stXDec _ | .stY _ | .stYInc _ | .stYDec _
  | .stdY _ _ | .stZ _ | .stZInc _ | .stZDec _ | .stdZ _ _ | .lpm | .lpmZ _ | .lpmZInc _ | .elpm | .elpmZ _
  | .elpmZInc _ | .spm | .spmZInc | .inp _ _ | .out _ _ | .push _ | .pop _ | .xch _ | .lsl _ | .lsr _ | .rol _
  | .ror _ | .asr _ | .swap _ | .bset _ | .bclr _ | .bst _ _ | .bld _ _ | .sec | .clc | .sen | .cln | .sez | .clz
  | .sei | .cli | .ses | .cls | .sev | .clv | .setT | .clt | .seh | .clh | .brk | .nop | .sleep | .wdr => true

/-- Whether the device has the form at all: the condition column of R96, by the feature parameters of R7. -/
def Instr.hasForm (f : Features) : Instr → Bool
  | .movw _ _ => f.hasMovw
  | .lds _ _ | .sts _ _ | .lddY _ _ | .lddZ _ _ | .stdY _ _ | .stdZ _ _ => !f.hasLds16
  | .lds16 _ _ | .sts16 _ _ => f.hasLds16
  | .lpmZ _ | .lpmZInc _ => f.hasLpmx
  | .elpm | .elpmZ _ | .elpmZInc _ => f.hasElpm
  | .spm => f.hasSpm
  | .spmZInc => f.hasSpmZinc
  | .xch _ => f.hasXch
  | .brk => f.hasBreak
  | .mov _ _ | .ldi _ _ | .ldX _ | .ldXInc _ | .ldXDec _ | .ldY _ | .ldYInc _ | .ldYDec _ | .ldZ _ | .ldZInc _
  | .ldZDec _ | .stX _ | .stXInc _ | .stXDec _ | .stY _ | .stYInc _ | .stYDec _ | .stZ _ | .stZInc _ | .stZDec _
  | .lpm | .inp _ _ | .out _ _ | .push _ | .pop _ | .lsl _ | .lsr _ | .rol _ | .ror _ | .asr _ | .swap _ | .bset _
  | .bclr _ | .sbi _ _ | .cbi _ _ | .bst _ _ | .bld _ _ | .sec | .clc | .sen | .cln | .sez | .clz | .sei | .cli
  | .ses | .cls | .sev | .clv | .setT | .clt | .seh | .clh | .nop | .sleep | .wdr => true

/-- The general registers an instruction names as data operands, written or implied (R21). -/
def Instr.dataRegs : Instr → List Reg
  | .mov d r | .movw d r => [d, r]
  | .ldi d _ | .lds d _ | .lds16 d _ | .ldX d | .ldXInc d | .ldXDec d | .ldY d | .ldYInc d | .ldYDec d | .ldZ d
  | .ldZInc d | .ldZDec d | .lddY d _ | .lddZ d _ | .lpmZ d | .lpmZInc d | .elpmZ d | .elpmZInc d | .inp d _
  | .pop d | .xch d | .lsl d | .lsr d | .rol d | .ror d | .asr d | .swap d | .bld d _ => [d]
  | .sts _ r | .sts16 _ r | .stX r | .stXInc r | .stXDec r | .stY r | .stYInc r | .stYDec r | .stdY _ r | .stZ r
  | .stZInc r | .stZDec r | .stdZ _ r | .out _ r | .push r | .bst r _ => [r]
  | .lpm | .elpm => [0]
  | .spm | .spmZInc => [0, 1]
  | .bset _ | .bclr _ | .sbi _ _ | .cbi _ _ | .sec | .clc | .sen | .cln | .sez | .clz | .sei | .cli | .ses | .cls
  | .sev | .clv | .setT | .clt | .seh | .clh | .brk | .nop | .sleep | .wdr => []

/-- When HAS_LDS16 is true only R16..R31 exist (R7; log 26). -/
def Instr.regsExist (f : Features) (i : Instr) : Bool := !f.hasLds16 || i.dataRegs.all upperReg

/-- The device has the instruction: its form and its registers (R7, R8). -/
def Instr.supported (f : Features) (i : Instr) : Bool := i.hasForm f && i.regsExist f

/-- A well-formed instruction of a device with features `f`. -/
def WellFormed (f : Features) (i : Instr) : Bool := i.operandsOk && i.supported f

end Sys2Proof
end

