-- ==== Sys2Proof/Decode.lean ====
section
/-! DEFINITION. The decoder and the encoder, from the formats of 30_encoding.md R84 to R95, the master table R96, the
operand assembly R97 and the decode order R102. Decoding is total on any bytes and refuses by name (R101). -/

namespace Sys2Proof

open Config

/-! ## Operand fields (R97) -/

/-- `w[8:4]`: the register of F_R5X, F_DISP, F_IO, F_R1, F_TBIT and the destination of F_RR. -/
def regField (w : Word) : Reg := w.extractLsb' 4 5

/-- `w[9] : w[3:0]`: the source register of F_RR. -/
def srcField (w : Word) : Reg := w.extractLsb' 9 1 ++ w.extractLsb' 0 4

/-- `16 + w[7:4]`: the register of F_IMM8 and F_LDS16. -/
def upperField (w : Word) : Reg := 1#1 ++ w.extractLsb' 4 4

/-- `2 * w[7:4]`: the destination pair of F_PAIR. -/
def pairDstField (w : Word) : Reg := w.extractLsb' 4 4 ++ 0#1

/-- `2 * w[3:0]`: the source pair of F_PAIR. -/
def pairSrcField (w : Word) : Reg := w.extractLsb' 0 4 ++ 0#1

/-- `w[11:8] : w[3:0]`: the constant of F_IMM8. -/
def immField (w : Word) : Byte := w.extractLsb' 8 4 ++ w.extractLsb' 0 4

/-- `w[13] : w[11:10] : w[2:0]`: the displacement of F_DISP. -/
def dispField (w : Word) : Disp := w.extractLsb' 13 1 ++ w.extractLsb' 10 2 ++ w.extractLsb' 0 3

/-- `w[10:9] : w[3:0]`: the I/O address of F_IO. -/
def ioField (w : Word) : IoAddr := w.extractLsb' 9 2 ++ w.extractLsb' 0 4

/-- `w[7:3]`: the I/O address of F_IOBIT, 0..31. -/
def lowIoField (w : Word) : IoAddr := 0#1 ++ w.extractLsb' 3 5

/-- `w[2:0]`: the bit number of F_IOBIT and F_TBIT. -/
def bitField (w : Word) : BitNum := w.extractLsb' 0 3

/-- `w[6:4]`: the SREG bit of F_SREG. -/
def sregField (w : Word) : BitNum := w.extractLsb' 4 3

/-- The address of F_LDS16 (R90): `~w[8] : w[8] : w[10] : w[9] : w[3:0]`. -/
def direct16Field (w : Word) : Byte :=
  ~~~(w.extractLsb' 8 1) ++ w.extractLsb' 8 1 ++ w.extractLsb' 10 1 ++ w.extractLsb' 9 1 ++ w.extractLsb' 0 4

/-! ## What a first word says -/

/-- What the first word of an instruction says (R81, R82). -/
inductive Form where
  /-- A one-word instruction. -/
  | one (i : Instr)
  /-- `LDS Rd,k` in two words: the second is k. -/
  | ldsAbs (d : Reg)
  /-- `STS k,Rr` in two words: the second is k. -/
  | stsAbs (r : Reg)
  deriving DecidableEq, Repr

/-- F_NOARG (R94). -/
def noArgForm (w : Word) : Option Instr :=
  if w = 0x0000#16 then some .nop
  else if w = 0x9588#16 then some .sleep
  else if w = 0x9598#16 then some .brk
  else if w = 0x95A8#16 then some .wdr
  else if w = 0x95C8#16 then some .lpm
  else if w = 0x95D8#16 then some .elpm
  else if w = 0x95E8#16 then some .spm
  else if w = 0x95F8#16 then some .spmZInc
  else none

/-- The sixteen named F_SREG forms (R93, R98). -/
def namedSregForm (w : Word) : Option Instr :=
  if w = 0x9408#16 then some .sec
  else if w = 0x9418#16 then some .sez
  else if w = 0x9428#16 then some .sen
  else if w = 0x9438#16 then some .sev
  else if w = 0x9448#16 then some .ses
  else if w = 0x9458#16 then some .seh
  else if w = 0x9468#16 then some .setT
  else if w = 0x9478#16 then some .sei
  else if w = 0x9488#16 then some .clc
  else if w = 0x9498#16 then some .clz
  else if w = 0x94A8#16 then some .cln
  else if w = 0x94B8#16 then some .clv
  else if w = 0x94C8#16 then some .cls
  else if w = 0x94D8#16 then some .clh
  else if w = 0x94E8#16 then some .clt
  else if w = 0x94F8#16 then some .cli
  else none

/-- F_SREG (R93): BSET and BCLR. Every word of it is also a named form, and R102 tries those first. -/
def sregForm (w : Word) : Option Instr :=
  if w &&& 0xFF8F#16 = 0x9408#16 then some (.bset (sregField w))
  else if w &&& 0xFF8F#16 = 0x9488#16 then some (.bclr (sregField w))
  else none

/-- F_R1 (R92). -/
def oneRegForm (w : Word) : Option Instr :=
  let m := w &&& 0xFE0F#16
  let d := regField w
  if m = 0x9402#16 then some (.swap d)
  else if m = 0x9405#16 then some (.asr d)
  else if m = 0x9406#16 then some (.lsr d)
  else if m = 0x9407#16 then some (.ror d)
  else none

/-- F_R5X and F_ABS32 (R87, R88). -/
def subOpForm (w : Word) : Option Form :=
  let m := w &&& 0xFE0F#16
  let r := regField w
  if m = 0x9000#16 then some (.ldsAbs r)
  else if m = 0x9001#16 then some (.one (.ldZInc r))
  else if m = 0x9002#16 then some (.one (.ldZDec r))
  else if m = 0x9004#16 then some (.one (.lpmZ r))
  else if m = 0x9005#16 then some (.one (.lpmZInc r))
  else if m = 0x9006#16 then some (.one (.elpmZ r))
  else if m = 0x9007#16 then some (.one (.elpmZInc r))
  else if m = 0x9009#16 then some (.one (.ldYInc r))
  else if m = 0x900A#16 then some (.one (.ldYDec r))
  else if m = 0x900C#16 then some (.one (.ldX r))
  else if m = 0x900D#16 then some (.one (.ldXInc r))
  else if m = 0x900E#16 then some (.one (.ldXDec r))
  else if m = 0x900F#16 then some (.one (.pop r))
  else if m = 0x9200#16 then some (.stsAbs r)
  else if m = 0x9201#16 then some (.one (.stZInc r))
  else if m = 0x9202#16 then some (.one (.stZDec r))
  else if m = 0x9204#16 then some (.one (.xch r))
  else if m = 0x9209#16 then some (.one (.stYInc r))
  else if m = 0x920A#16 then some (.one (.stYDec r))
  else if m = 0x920C#16 then some (.one (.stX r))
  else if m = 0x920D#16 then some (.one (.stXInc r))
  else if m = 0x920E#16 then some (.one (.stXDec r))
  else if m = 0x920F#16 then some (.one (.push r))
  else none

/-- F_IOBIT, F_TBIT, F_IO, F_IMM8 and F_PAIR (R95, R91, R86, R85). -/
def fieldForm (w : Word) : Option Instr :=
  if w &&& 0xFF00#16 = 0x9A00#16 then some (.sbi (lowIoField w) (bitField w))
  else if w &&& 0xFF00#16 = 0x9800#16 then some (.cbi (lowIoField w) (bitField w))
  else if w &&& 0xFE08#16 = 0xFA00#16 then some (.bst (regField w) (bitField w))
  else if w &&& 0xFE08#16 = 0xF800#16 then some (.bld (regField w) (bitField w))
  else if w &&& 0xF800#16 = 0xB000#16 then some (.inp (regField w) (ioField w))
  else if w &&& 0xF800#16 = 0xB800#16 then some (.out (ioField w) (regField w))
  else if w &&& 0xF000#16 = 0xE000#16 then some (.ldi (upperField w) (immField w))
  else if w &&& 0xFF00#16 = 0x0100#16 then some (.movw (pairDstField w) (pairSrcField w))
  else none

/-- F_LDS16 (R90), tried when HAS_LDS16 (R102, C6). -/
def directForm (w : Word) : Option Instr :=
  if w &&& 0xF800#16 = 0xA000#16 then some (.lds16 (upperField w) (direct16Field w))
  else if w &&& 0xF800#16 = 0xA800#16 then some (.sts16 (direct16Field w) (upperField w))
  else none

/-- F_DISP (R89): with q = 0 the word is LD or ST without displacement (R98, R102). -/
def dispForm (w : Word) : Option Instr :=
  let m := w &&& 0xD208#16
  let r := regField w
  let q := dispField w
  if m = 0x8008#16 then some (if q = 0 then .ldY r else .lddY r q)
  else if m = 0x8000#16 then some (if q = 0 then .ldZ r else .lddZ r q)
  else if m = 0x8208#16 then some (if q = 0 then .stY r else .stdY q r)
  else if m = 0x8200#16 then some (if q = 0 then .stZ r else .stdZ q r)
  else none

/-- F_RR (R84): MOV, and LSL and ROL where both fields name one register. -/
def twoRegForm (w : Word) : Option Instr :=
  let m := w &&& 0xFC00#16
  if m = 0x2C00#16 then some (.mov (regField w) (srcField w))
  else if m = 0x0C00#16 ∧ srcField w = regField w then some (.lsl (regField w))
  else if m = 0x1C00#16 ∧ srcField w = regField w then some (.rol (regField w))
  else none

/-- The form of a first word, in the order of R102. Whether the device has the form is `Form.supported`. -/
def formOf (lds16 : Bool) (w : Word) : Option Form :=
  match noArgForm w with
  | some i => some (.one i)
  | none =>
    match namedSregForm w with
    | some i => some (.one i)
    | none =>
      match sregForm w with
      | some i => some (.one i)
      | none =>
        match oneRegForm w with
        | some i => some (.one i)
        | none =>
          match subOpForm w with
          | some fm => some fm
          | none =>
            match fieldForm w with
            | some i => some (.one i)
            | none =>
              match (if lds16 then directForm w else none) with
              | some i => some (.one i)
              | none =>
                match dispForm w with
                | some i => some (.one i)
                | none => (twoRegForm w).map Form.one

/-- The device has the form (R7, R8); for the two-word forms the second word does not matter. -/
def Form.supported (f : Features) : Form → Bool
  | .one i => i.supported f
  | .ldsAbs d => (Instr.lds d 0).supported f
  | .stsAbs r => (Instr.sts 0 r).supported f

/-- The form of a first word on a device; none is R101's refusal. -/
def firstWord (f : Features) (w : Word) : Option Form :=
  match formOf f.hasLds16 w with
  | some fm => if fm.supported f then some fm else none
  | none => none

/-! ## Decoding -/

/-- What decoding a sequence of bytes answers. -/
inductive Decoded where
  /-- An instruction, and the bytes after it. -/
  | instr (i : Instr) (rest : List Byte)
  /-- `refuse NotInScope(w)`: the word is none of the device's forms (R101). -/
  | notInScope (w : Word)
  /-- The bytes end inside an instruction. -/
  | truncated
  deriving DecidableEq, Repr

/-- Decode the instruction at the head of program memory seen as bytes, low byte of each word first (R54). -/
def decode (f : Features) : List Byte → Decoded
  | lo :: hi :: rest =>
    let w := joinBytes hi lo
    match firstWord f w with
    | none => .notInScope w
    | some (.one i) => .instr i rest
    | some (.ldsAbs d) =>
      match rest with
      | lo2 :: hi2 :: rest2 => .instr (.lds d (joinBytes hi2 lo2)) rest2
      | _ => .truncated
    | some (.stsAbs r) =>
      match rest with
      | lo2 :: hi2 :: rest2 => .instr (.sts (joinBytes hi2 lo2) r) rest2
      | _ => .truncated
  | _ => .truncated

/-! ## Encoding -/

/-- F_RR (R84): `oooo oord dddd rrrr`. -/
def encRR (op : BitVec 6) (d r : Reg) : Word := op ++ r.extractLsb' 4 1 ++ d ++ r.extractLsb' 0 4

/-- F_PAIR (R85): `0000 0001 dddd rrrr`. -/
def encPair (d r : Reg) : Word := 0x01#8 ++ d.extractLsb' 1 4 ++ r.extractLsb' 1 4

/-- F_IMM8 (R86): `1110 KKKK dddd KKKK`. -/
def encImm (d : Reg) (k : Byte) : Word := 0b1110#4 ++ k.extractLsb' 4 4 ++ d.extractLsb' 0 4 ++ k.extractLsb' 0 4

/-- F_R5X (R87): `1001 00Sd dddd mmmm`. -/
def encSub (s : BitVec 1) (r : Reg) (m : BitVec 4) : Word := 0b100100#6 ++ s ++ r ++ m

/-- F_DISP (R89): `10q0 qqSd dddd Pqqq`. -/
def encDisp (s : BitVec 1) (r : Reg) (p : BitVec 1) (q : Disp) : Word :=
  0b10#2 ++ q.extractLsb' 5 1 ++ 0b0#1 ++ q.extractLsb' 3 2 ++ s ++ r ++ p ++ q.extractLsb' 0 3

/-- F_LDS16 (R90): `1010 Skkk dddd kkkk`. -/
def encDirect (s : BitVec 1) (r : Reg) (k : Byte) : Word :=
  0b1010#4 ++ s ++ k.extractLsb' 5 1 ++ k.extractLsb' 4 1 ++ k.extractLsb' 6 1 ++ r.extractLsb' 0 4 ++ k.extractLsb' 0 4

/-- F_IO (R91): `1011 SAAd dddd AAAA`. -/
def encIo (s : BitVec 1) (r : Reg) (a : IoAddr) : Word :=
  0b1011#4 ++ s ++ a.extractLsb' 4 2 ++ r ++ a.extractLsb' 0 4

/-- F_R1 (R92): `1001 010d dddd ffff`. -/
def encR1 (d : Reg) (fn : BitVec 4) : Word := 0b1001010#7 ++ d ++ fn

/-- F_SREG (R93): `1001 0100 Bsss 1000`. -/
def encSreg (b : BitVec 1) (s : BitNum) : Word := 0b10010100#8 ++ b ++ s ++ 0b1000#4

/-- F_IOBIT (R95): `1001 10B0 AAAA Abbb`. -/
def encIoBit (b : BitVec 1) (a : IoAddr) (n : BitNum) : Word :=
  0b100110#6 ++ b ++ 0b0#1 ++ a.extractLsb' 0 5 ++ n

/-- F_TBIT (R95): `1111 10Bd dddd 0bbb`. -/
def encTBit (b : BitVec 1) (r : Reg) (n : BitNum) : Word := 0b111110#6 ++ b ++ r ++ 0b0#1 ++ n

/-- The words of a well-formed instruction, first word first (R81, R96). -/
def encode : Instr → List Word
  | .mov d r => [encRR 0b001011 d r]
  | .movw d r => [encPair d r]
  | .ldi d k => [encImm d k]
  | .lds d k => [encSub 0 d 0b0000, k]
  | .lds16 d k => [encDirect 0 d k]
  | .ldX d => [encSub 0 d 0b1100]
  | .ldXInc d => [encSub 0 d 0b1101]
  | .ldXDec d => [encSub 0 d 0b1110]
  | .ldY d => [encDisp 0 d 1 0]
  | .ldYInc d => [encSub 0 d 0b1001]
  | .ldYDec d => [encSub 0 d 0b1010]
  | .ldZ d => [encDisp 0 d 0 0]
  | .ldZInc d => [encSub 0 d 0b0001]
  | .ldZDec d => [encSub 0 d 0b0010]
  | .lddY d q => [encDisp 0 d 1 q]
  | .lddZ d q => [encDisp 0 d 0 q]
  | .sts k r => [encSub 1 r 0b0000, k]
  | .sts16 k r => [encDirect 1 r k]
  | .stX r => [encSub 1 r 0b1100]
  | .stXInc r => [encSub 1 r 0b1101]
  | .stXDec r => [encSub 1 r 0b1110]
  | .stY r => [encDisp 1 r 1 0]
  | .stYInc r => [encSub 1 r 0b1001]
  | .stYDec r => [encSub 1 r 0b1010]
  | .stdY q r => [encDisp 1 r 1 q]
  | .stZ r => [encDisp 1 r 0 0]
  | .stZInc r => [encSub 1 r 0b0001]
  | .stZDec r => [encSub 1 r 0b0010]
  | .stdZ q r => [encDisp 1 r 0 q]
  | .lpm => [0x95C8]
  | .lpmZ d => [encSub 0 d 0b0100]
  | .lpmZInc d => [encSub 0 d 0b0101]
  | .elpm => [0x95D8]
  | .elpmZ d => [encSub 0 d 0b0110]
  | .elpmZInc d => [encSub 0 d 0b0111]
  | .spm => [0x95E8]
  | .spmZInc => [0x95F8]
  | .inp d a => [encIo 0 d a]
  | .out a r => [encIo 1 r a]
  | .push r => [encSub 1 r 0b1111]
  | .pop d => [encSub 0 d 0b1111]
  | .xch d => [encSub 1 d 0b0100]
  | .lsl d => [encRR 0b000011 d d]
  | .lsr d => [encR1 d 0b0110]
  | .rol d => [encRR 0b000111 d d]
  | .ror d => [encR1 d 0b0111]
  | .asr d => [encR1 d 0b0101]
  | .swap d => [encR1 d 0b0010]
  | .bset s => [encSreg 0 s]
  | .bclr s => [encSreg 1 s]
  | .sbi a b => [encIoBit 1 a b]
  | .cbi a b => [encIoBit 0 a b]
  | .bst r b => [encTBit 1 r b]
  | .bld d b => [encTBit 0 d b]
  | .sec => [encSreg 0 0]
  | .clc => [encSreg 1 0]
  | .sen => [encSreg 0 2]
  | .cln => [encSreg 1 2]
  | .sez => [encSreg 0 1]
  | .clz => [encSreg 1 1]
  | .sei => [encSreg 0 7]
  | .cli => [encSreg 1 7]
  | .ses => [encSreg 0 4]
  | .cls => [encSreg 1 4]
  | .sev => [encSreg 0 3]
  | .clv => [encSreg 1 3]
  | .setT => [encSreg 0 6]
  | .clt => [encSreg 1 6]
  | .seh => [encSreg 0 5]
  | .clh => [encSreg 1 5]
  | .brk => [0x9598]
  | .nop => [0x0000]
  | .sleep => [0x9588]
  | .wdr => [0x95A8]

/-- How many words an instruction occupies (R81). -/
def Instr.words : Instr → Nat
  | .lds _ _ => 2
  | .sts _ _ => 2
  | _ => 1

/-- The bytes of a list of words as program memory holds them: low byte first (R54). -/
def bytesOf : List Word → List Byte
  | [] => []
  | w :: ws => lowByte w :: highByte w :: bytesOf ws

/-- The name under which the decoder gives an instruction: where a word has two names, the named form is taken
(30_encoding.md R98, R102). -/
def Instr.canonical : Instr → Instr
  | .bset s =>
    match s.toNat with
    | 0 => .sec
    | 1 => .sez
    | 2 => .sen
    | 3 => .sev
    | 4 => .ses
    | 5 => .seh
    | 6 => .setT
    | _ => .sei
  | .bclr s =>
    match s.toNat with
    | 0 => .clc
    | 1 => .clz
    | 2 => .cln
    | 3 => .clv
    | 4 => .cls
    | 5 => .clh
    | 6 => .clt
    | _ => .cli
  | .lddY d q => if q = 0 then .ldY d else .lddY d q
  | .lddZ d q => if q = 0 then .ldZ d else .lddZ d q
  | .stdY q r => if q = 0 then .stY r else .stdY q r
  | .stdZ q r => if q = 0 then .stZ r else .stdZ q r
  | i => i

/-! ## The words of the opcode table -/

/-- The first word is that of a two-word form when HAS_LDS16 is false (R82). -/
def isTwoWord (w : Word) : Bool := w &&& 0xFC0F#16 == 0x9000#16

/-- The two instruction words meant by a row's bits `w` (log 27). A row of one word has it in bits 15..0 and zeros for a
second word. For the two rows of 32 bits the opcode table puts the first word in bits 31..16 (R81); where those bits
are not a two-word form's first word, the first word is read from bits 15..0. -/
def tableWords (nbits w : Nat) : Word × Word :=
  let low := BitVec.ofNat 16 w
  let high := BitVec.ofNat 16 (w / 65536)
  if nbits ≤ 16 then (low, 0#16) else if isTwoWord high then (high, low) else (low, high)

/-- The bytes of the two words of `tableWords`, as program memory holds them (R54). -/
def tableBytes (nbits w : Nat) : List Byte :=
  let p := tableWords nbits w
  bytesOf [p.1, p.2]

/-- The instruction at the head of some bytes, if there is one. -/
def Decoded.instr? : Decoded → Option Instr
  | .instr i _ => some i
  | .notInScope _ | .truncated => none

/-- The features under which a row's bits are an instruction: the ATmega32's, and where the ATmega32 lacks the form,
those of a device that has every doubtful form C5 names beside LDD and STD (log 27). -/
def tableFeatures (nbits w : Nat) : Features :=
  if (decode Features.atmega32 (tableBytes nbits w)).instr?.isSome then Features.atmega32 else Features.extended

/-- The instruction the decoder reads from a row's bits (log 27). -/
def decodeTableWord (nbits w : Nat) : Option Instr :=
  (decode (tableFeatures nbits w) (tableBytes nbits w)).instr?

end Sys2Proof
end

