-- ==== Sys2Proof/Machine/Fetch.lean ====
section
/-! DEFINITION. Fetching and decoding the instruction at the pc (20_memory.md R53; 10_state.md R26; 30_encoding.md R82,
R101). -/

namespace Sys2Proof.Machine

open Config

/-- `ProgWord(wa)` as an instruction fetch (R53): at or above FLASH_WORDS it is refused (R26, R64); in a section that
must not be read it faults (R271; log 13). It sees the word as program memory holds it at this moment, what SPM wrote
included: DESIGN CHOICE (R69; log 46). -/
def fetchWord (s : State) (wa : Nat) : Res Word :=
  if s.launch.device.flashWords ≤ wa then .refused (.fetchOutside wa)
  else if s.sectionBusy wa = true then .fault (.busySectionFetch wa)
  else .next (s.mem.progWord wa)

/-- The instruction at the pc (R53, R82). A pc that wrapped past the top of the address space has none (R26); nor has a
word that is none of the device's forms (R8, R101). -/
def fetchInstr (s : State) : Res Instr :=
  if s.pcWrapped = true then .refused (.fetchOutside (2 ^ s.launch.device.pcBits))
  else
    andThen (fetchWord s s.pc.toNat) fun w =>
      match firstWord s.launch.device.features w with
      | none => .refused (.notInScope w)
      | some (.one i) => .next i
      | some (.ldsAbs d) => andThen (fetchWord s (s.pc.toNat + 1)) fun k => .next (.lds d k)
      | some (.stsAbs r) => andThen (fetchWord s (s.pc.toNat + 1)) fun k => .next (.sts k r)

/-- The run ends here: `pc == END_PC` before fetching (R275; log 20). It ends also where the core is asleep: DESIGN
CHOICE, R212 and R275 do not say which comes first (log 20). -/
def State.atEnd (s : State) : Bool := (s.launch.endPc == some s.pc) && !s.pcWrapped

/-- Store the two words of `tableWords` at the pc, where the next instruction is fetched. -/
def State.storeAtPc (s : State) (nbits w : Nat) : State :=
  let p := tableWords nbits w
  let a := 2 * s.pc.toNat
  { s with
    mem := (((s.mem.write .flash a (lowByte p.1)).write .flash (a + 1) (highByte p.1)).write .flash (a + 2)
      (lowByte p.2)).write .flash (a + 3) (highByte p.2) }

/-- Give the device the form of the stored word where it lacks it and `Features.extended` has it (log 27). -/
def State.withFormOf (s : State) (nbits w : Nat) : State :=
  if (decode s.launch.device.features (tableBytes nbits w)).instr?.isSome then s
  else if (decode Features.extended (tableBytes nbits w)).instr?.isSome then
    { s with launch := { s.launch with device := s.launch.device.withFeatures Features.extended } }
  else s

end Sys2Proof.Machine
end

