-- ==== Sys2Proof/Machine/Step.lean ====
section
/-! DEFINITION. One step of the machine: an instruction of the core, the entry of an interrupt, or the turn of another
agent (00_scope.md R13; 60_exceptions.md R225, R227, R231; 70_reset_and_hazards.md R275). -/

namespace Sys2Proof.Machine

/-- The turn of the core: asleep it executes nothing (R212), else it executes the instruction at the pc. -/
def coreTurn (s : State) : Host.Outcome State Fault Refusal :=
  if s.asleep = true then .next s else andThen (fetchInstr s) fun i => exec i s

/-- A turn of the interrupt agent: the interrupt that can be taken is entered (R225, R229); where none can, the turn
passes. -/
def deliver (s : State) : Host.Outcome State Fault Refusal :=
  match s.takeable with
  | some v => enterInterrupt v s
  | none => .next s

/-- An instruction boundary at which nothing else is due: an interrupt that can be taken is taken (R225), else it is the
core's turn. -/
def boundary (s : State) : Host.Outcome State Fault Refusal :=
  match s.takeable with
  | some v => enterInterrupt v s
  | none => coreTurn s

/-- One step. The run ends where pc = END_PC (R275), whoever would be next and whether or not the core is asleep
(DESIGN CHOICE, log 20); else the agenda says who moves (log 15). -/
def step (s : State) : Host.Outcome State Fault Refusal :=
  if s.atEnd = true then .fault .endOfRun
  else
    match s.agenda with
    | [] => boundary s
    | .core :: rest => coreTurn { s with agenda := rest }
    | .interrupt :: rest => deliver { s with agenda := rest }
    | .device e :: rest => .next (deviceEvent e { s with agenda := rest })
    | .mid e :: rest => .next (deviceEvent e { s with agenda := rest })
    | .reset c :: rest => .next (takeReset c { s with agenda := rest })

/-- The state with the instruction of an opcode-table row's bits where step fetches next (log 27, log 28). -/
def State.withFetchWord (s : State) (nbits w : Nat) : State := (s.storeAtPc nbits w).withFormOf nbits w

end Sys2Proof.Machine
end

