-- ==== Sys2Proof/Safety.lean ====
section
/-! DEFINITION. The terms in which statements about the machine are made: what holds in every state of a good run (the
invariant), what an instruction leaves unchanged (frames), and the operand forms of the loads and stores. Every
predicate is over `State`, for every device (`State.launch`). -/

namespace Sys2Proof.Machine

open Config

/-! ## The invariant -/

/-- Every listed byte of SRAM lies in `SRAM_START..RAMEND` (R51, R57), every listed byte of program memory below
`FLASH_WORDS` words (R52, R64), every listed byte of the EEPROM below `EEPROM_BYTES` (R71), and every listed byte of the
page buffer in the page (R158). -/
def State.cellsInRange (s : State) : Prop :=
  (∀ c ∈ s.mem.sram, s.launch.device.sramStart ≤ c.1 ∧ c.1 ≤ s.launch.device.ramEnd) ∧
    (∀ c ∈ s.mem.flash, c.1 < 2 * s.launch.device.flashWords) ∧
    (∀ c ∈ s.mem.eeprom, c.1 < s.launch.device.eepromBytes) ∧
    (∀ c ∈ s.mem.pageBuffer, c.1 < pageBytes s.launch.device)

/-- The operations in progress act inside their memories (R64, R158). -/
def State.jobsInRange (s : State) : Prop :=
  (∀ w, s.eeWrite = some w → w.addr < s.launch.device.eepromBytes) ∧
    (∀ base, s.spmJob = some (.erase base) → base + pageBytes s.launch.device ≤ 2 * s.launch.device.flashWords) ∧
    (∀ base, s.spmJob = some (.write base) → base + pageBytes s.launch.device ≤ 2 * s.launch.device.flashWords)

/-- The invariant of a run: the parameters are meaningful; every memory is in its canonical form and lists only
addresses it has; the unimplemented bits of the pc (R24), SP (R31), RAMPZ (R33), EEARH (R36) and SPMCR, and the request,
level and enable bits that belong to no vector, read 0; no timed unlock bit is between its setting and the end of the
instruction that set it. -/
structure State.Inv (s : State) : Prop where
  device : s.launch.device.wf = true
  mem : s.mem.wf = true
  cells : s.cellsInRange
  jobs : s.jobsInRange
  pc : s.pc.toNat < 2 ^ s.launch.device.pcBits
  sp : s.sp.toNat < 2 ^ s.launch.device.spBits
  rampz : s.rampz.toNat < 2 ^ rampzBits s.launch.device
  eearh : s.eearh.toNat < 4
  spmcr : s.spmcr.getLsbD 5 = false
  irqFlags : s.irqFlags.getLsbD 0 = false ∧ s.irqFlags.getLsbD 1 = false
  irqLevels : s.irqLevels.getLsbD 0 = false ∧ s.irqLevels.getLsbD 1 = false
  irqEnables : s.irqEnables.getLsbD 0 = false ∧ s.irqEnables.getLsbD 1 = false
  eeWindow : s.eeWindow ≠ .armed
  spmWindow : s.spmWindow ≠ .armed

/-! ## Frames -/

/-- Every general register but those listed reads as before. -/
def SameRegsBut (ds : List Reg) (s t : State) : Prop := ∀ j, j ∉ ds → t.reg j = s.reg j

/-- Every byte of every memory reads as before, but those of `sp` at the addresses that `hit` holds of. -/
def SameMemBut (sp : Space) (hit : Nat → Prop) (s t : State) : Prop :=
  ∀ sp' b, ¬(sp' = sp ∧ hit b) → t.mem.read sp' b = s.mem.read sp' b

/-- Every byte of every memory reads as before. -/
def SameMem (s t : State) : Prop := ∀ sp b, t.mem.read sp b = s.mem.read sp b

/-- SP and RAMPZ are as before. -/
def SameStack (s t : State) : Prop := t.sp = s.sp ∧ t.rampz = s.rampz

/-- The EEPROM's registers and its write in progress are as before. -/
def SameEeprom (s t : State) : Prop :=
  t.eearh = s.eearh ∧ t.eearl = s.eearl ∧ t.eedr = s.eedr ∧ t.eerie = s.eerie ∧ t.eeWrite = s.eeWrite

/-- SPMCR, the SPM operation in progress and the lock bits are as before. -/
def SameSpm (s t : State) : Prop := t.spmcr = s.spmcr ∧ t.spmJob = s.spmJob ∧ t.lockBits = s.lockBits

/-- MCUCR, the interrupt requests, levels and enables, the sleep state, the watchdog counter, whose turn comes next, and
the launch parameters are as before. -/
def SameControl (s t : State) : Prop :=
  t.mcucr = s.mcucr ∧ t.irqFlags = s.irqFlags ∧ t.irqLevels = s.irqLevels ∧ t.irqEnables = s.irqEnables ∧
    t.asleep = s.asleep ∧ t.watchdog = s.watchdog ∧ t.agenda = s.agenda ∧ t.launch = s.launch

/-- All of the four: everything outside the general registers, SREG, the memories, the recorded I/O accesses and what
the end of an instruction changes. -/
def SameAside (s t : State) : Prop := SameStack s t ∧ SameEeprom s t ∧ SameSpm s t ∧ SameControl s t

/-- The pc and the hold-off after an instruction of `n` words (R25, R26, R228). -/
def Advanced (n : Nat) (s t : State) : Prop :=
  t.pc.toNat = (s.pc.toNat + n) % 2 ^ s.launch.device.pcBits % 65536 ∧
    (t.pcWrapped = true ↔ 2 ^ s.launch.device.pcBits ≤ s.pc.toNat + n) ∧ t.holdoff = false

/-- The timed unlock bits after an instruction that does not write them (R241). -/
def WindowsAged (s t : State) : Prop := t.eeWindow = s.eeWindow.age ∧ t.spmWindow = s.spmWindow.age

/-- What the end of an instruction of `n` words changes. -/
def Ended (n : Nat) (s t : State) : Prop := Advanced n s t ∧ WindowsAged s t

/-- Nothing changed but what the end of an instruction of `n` words changes. -/
def OnlyEnded (n : Nat) (s t : State) : Prop :=
  SameRegsBut [] s t ∧ t.sreg = s.sreg ∧ SameMem s t ∧ SameAside s t ∧ t.ioEvents = s.ioEvents ∧ Ended n s t

/-- No device acts between the two accesses of the read-modify-write about to be executed (D11). -/
def State.noMidTurn (s : State) : Prop := ∀ e rest, s.agenda ≠ .mid e :: rest

/-! ## Data addresses -/

/-- The byte at a data address, where reading it gives one (R56). -/
def State.dataByte (s : State) (a : Word) : Option Byte :=
  match dataPlace s.launch.device a with
  | .reg i => some (s.reg i)
  | .io b => some (ioRead s b).1
  | .sram b => s.mem.read .sram b
  | .nothing _ => none

/-- The recorded I/O accesses after a read of a data address: one more where it reaches a register the spec does not
model (R58, D12). -/
def State.eventsAfterRead (s : State) (a : Word) : List IoEvent :=
  match dataPlace s.launch.device a with
  | .io b => if (ioReg s.launch b).recorded then .read b (ioDraw s.draws b) :: s.ioEvents else s.ioEvents
  | .reg _ | .sram _ | .nothing _ => s.ioEvents

/-- The byte at a byte address of program memory (R54): the low byte of its word where the address is even, the high
byte where it is odd. -/
def State.progByte (s : State) (ba : Nat) : Byte :=
  if ba % 2 = 0 then lowByte (s.mem.progWord (ba / 2)) else highByte (s.mem.progWord (ba / 2))

/-- LPM and ELPM read program memory at the byte address: it is implemented (R150) and in no busy section (R271). -/
def State.progReadable (s : State) (ba : Nat) : Prop :=
  ba / 2 < s.launch.device.flashWords ∧ s.sectionBusy (ba / 2) = false

/-! ## Operand forms -/

/-- The loads that leave their pointer alone, with the destination and the data address (R114 to R116, R119, R122,
R125, R126). -/
def loadForm (s : State) : Instr → Option (Reg × Word)
  | .lds d k => some (d, k)
  | .lds16 d k => some (d, directAddr k)
  | .ldX d => some (d, s.dataPtr .X)
  | .ldY d => some (d, s.dataPtr .Y)
  | .ldZ d => some (d, s.dataPtr .Z)
  | .lddY d q => some (d, s.dispAddr .Y q)
  | .lddZ d q => some (d, s.dispAddr .Z q)
  | _ => none

/-- The loads that update their pointer, with the pointer, whether it is decremented first, and the destination (R117,
R118, R120, R121, R123, R124). -/
def updLoadForm : Instr → Option (Ptr × Bool × Reg)
  | .ldXInc d => some (.X, false, d)
  | .ldXDec d => some (.X, true, d)
  | .ldYInc d => some (.Y, false, d)
  | .ldYDec d => some (.Y, true, d)
  | .ldZInc d => some (.Z, false, d)
  | .ldZDec d => some (.Z, true, d)
  | _ => none

/-- The stores that leave their pointer alone, with the source and the data address (R131 to R133, R136, R139, R140,
R143). -/
def storeForm (s : State) : Instr → Option (Reg × Word)
  | .sts k r => some (r, k)
  | .sts16 k r => some (r, directAddr k)
  | .stX r => some (r, s.dataPtr .X)
  | .stY r => some (r, s.dataPtr .Y)
  | .stZ r => some (r, s.dataPtr .Z)
  | .stdY q r => some (r, s.dispAddr .Y q)
  | .stdZ q r => some (r, s.dispAddr .Z q)
  | _ => none

/-- The stores that update their pointer, with the pointer, whether it is decremented first, and the source (R134,
R135, R137, R138, R141, R142). -/
def updStoreForm : Instr → Option (Ptr × Bool × Reg)
  | .stXInc r => some (.X, false, r)
  | .stXDec r => some (.X, true, r)
  | .stYInc r => some (.Y, false, r)
  | .stYDec r => some (.Y, true, r)
  | .stZInc r => some (.Z, false, r)
  | .stZDec r => some (.Z, true, r)
  | _ => none

/-- The address of an access that updates its pointer: before an increment, after a decrement. -/
def State.updAddr (s : State) (p : Ptr) (pre : Bool) : Word := if pre then s.movedPtr p (-1) else s.dataPtr p

/-- What an access that updates its pointer leaves in it. -/
def State.updPtr (s : State) (p : Ptr) (pre : Bool) : Word := if pre then s.movedPtr p (-1) else s.movedPtr p 1

/-- Of the pointer's two registers the one that an access that updates it leaves alone: the high one, where the data
space is small (R110(d)). -/
def KeepsHigh (p : Ptr) (s t : State) : Prop := smallDataSpace s.launch.device = true → t.reg p.hi = s.reg p.hi

/-- The operand combinations of R127 and R144 whose result is undefined. -/
def State.undefinedUpd (s : State) (p : Ptr) (pre : Bool) (r : Reg) : Bool := p.has r || s.hitsPtr p (s.updAddr p pre)

/-- The bit of SREG that an instruction sets (R177, R183 to R197). -/
def setsFlag : Instr → Option BitNum
  | .bset b => some b
  | .sec => some 0
  | .sez => some 1
  | .sen => some 2
  | .sev => some 3
  | .ses => some 4
  | .seh => some 5
  | .setT => some 6
  | .sei => some 7
  | _ => none

/-- The bit of SREG that an instruction clears (R178, R184 to R198). -/
def clearsFlag : Instr → Option BitNum
  | .bclr b => some b
  | .clc => some 0
  | .clz => some 1
  | .cln => some 2
  | .clv => some 3
  | .cls => some 4
  | .clh => some 5
  | .clt => some 6
  | .cli => some 7
  | _ => none

/-- The bytes of the two words of program memory at the pc, where the next instruction is fetched (R53, R54). -/
def State.fetchBytes (s : State) : List Byte :=
  [s.mem.byte .flash (2 * s.pc.toNat), s.mem.byte .flash (2 * s.pc.toNat + 1), s.mem.byte .flash (2 * s.pc.toNat + 2),
    s.mem.byte .flash (2 * s.pc.toNat + 3)]

/-- The core is next, and nothing else is due: the run goes on, no other agent has the turn, no interrupt can be taken,
and the core is awake. -/
def State.coreIsNext (s : State) : Prop :=
  s.atEnd = false ∧ s.agenda = [] ∧ s.takeable = none ∧ s.asleep = false

/-- An instruction executed `n` times in a row, each from the state the one before left. -/
def execTimes (i : Instr) : Nat → State → Res State
  | 0, s => .next s
  | n + 1, s => andThen (execTimes i n s) (exec i)

/-! ## Shared conclusions -/

/-- What the five shifts and rotates have in common (R170): the result `r` in the register, the bit `c` shifted out in
C, N, Z, V and S computed from the two, H where `h` gives it, T and I kept; nothing else changes. -/
def ShiftsTo (i : Instr) (d : Reg) (r : Byte) (c : Bool) (h : Option Bool) (s : State) : Prop :=
  ∃ t, exec i s = .next t ∧ t.reg d = r ∧ t.flag flagC = c ∧ t.flag flagN = r.getLsbD 7 ∧
    t.flag flagZ = decide (r = 0) ∧ t.flag flagV = (t.flag flagN).xor (t.flag flagC) ∧
    t.flag flagS = (t.flag flagN).xor (t.flag flagV) ∧ t.flag flagH = h.getD (s.flag flagH) ∧
    t.flag flagT = s.flag flagT ∧ t.flag flagI = s.flag flagI ∧ SameRegsBut [d] s t ∧ SameMem s t ∧ SameAside s t ∧
    t.ioEvents = s.ioEvents ∧ Ended 1 s t

/-- An instruction with the word `w`, which is also that of `same`: it gives bit `b` of SREG the value `x`, keeps the
other seven, and changes nothing else; a SREG of `before` becomes `after`. -/
def FlagForm (i same : Instr) (w : Word) (b : BitNum) (x : Bool) (before after : Byte) : Prop :=
  encode i = [w] ∧ encode same = [w] ∧
    (∀ s, ∃ t, exec i s = .next t ∧ t.flag b = x ∧ (∀ c, c ≠ b → t.flag c = s.flag c) ∧ SameRegsBut [] s t ∧
      SameMem s t ∧ SameAside s t ∧ t.ioEvents = s.ioEvents ∧ Ended 1 s t) ∧
    ∀ s, s.sreg = before → ∃ t, exec i s = .next t ∧ t.sreg = after

/-- The address one below SP, modulo 2^SP_BITS (R31, R162). -/
def State.spBelow (s : State) : Word :=
  BitVec.ofNat 16 ((s.sp.toNat + 2 ^ s.launch.device.spBits - 1) % 2 ^ s.launch.device.spBits)

/-- SP one lower, modulo 2^SP_BITS, after a push (R31, R162). -/
def State.spLowered (s : State) : State := s.setSp (s.sp - 1)

/-- What the entry of an interrupt leaves, outside the general registers and the memories, where its two bytes went to
registers or SRAM (R229): I is cleared and the other flags are kept; SP is two less; the pc is at the vector; the core
is awake; a request flag that entry clears is cleared; no window is open; everything else is kept. -/
def EntryLeaves (v : Irq) (s t : State) : Prop :=
  t.flag flagI = false ∧ (∀ c, c ≠ flagI → t.flag c = s.flag c) ∧
    t.sp.toNat = (s.sp.toNat + 2 * 2 ^ s.launch.device.spBits - 2) % 2 ^ s.launch.device.spBits ∧
    t.rampz = s.rampz ∧
    t.pc.toNat = s.launch.device.vectorStride * (v.number - 1) % 2 ^ s.launch.device.pcBits ∧
    t.pcWrapped = false ∧ t.asleep = false ∧ t.holdoff = s.holdoff ∧
    (∀ n, n < 22 → t.irqFlags.getLsbD n =
      (s.irqFlags.getLsbD n && !(v.clearedByEntry && decide (n = v.number)))) ∧
    t.irqLevels = s.irqLevels ∧ t.irqEnables = s.irqEnables ∧ t.mcucr = s.mcucr ∧ t.watchdog = s.watchdog ∧
    t.agenda = s.agenda ∧ t.launch = s.launch ∧ SameEeprom s t ∧ SameSpm s t ∧ t.ioEvents = s.ioEvents ∧
    t.eeWindow ≠ .open ∧ t.spmWindow ≠ .open ∧ t.takeable = none

/-- SPM acts on the state: the model has the device, the pc is in the boot-loader section, no operation runs, and the
instruction before wrote SPMCR with SPMEN and low five bits `op`. -/
def SpmReady (op : BitVec 5) (s : State) : Prop :=
  s.launch.spmModel = .device ∧ s.launch.device.bootStart ≤ s.pc.toNat ∧ s.spmJob = none ∧ s.spmWindow = .open ∧
    s.spmcr.extractLsb' 0 5 = op

/-- SPM changes, besides the memories, only SPMCR's low six bits, which read 0 afterwards, and its window. -/
def SpmEnds (s t : State) : Prop :=
  t.spmcr.extractLsb' 0 5 = 0 ∧ t.spmcr.getLsbD 7 = s.spmcr.getLsbD 7 ∧ t.spmWindow = .closed ∧ t.spmJob = none ∧
    SameRegsBut [] s t ∧ t.sreg = s.sreg ∧ SameStack s t ∧ SameEeprom s t ∧ SameControl s t ∧
    t.ioEvents = s.ioEvents ∧ Advanced 1 s t ∧ t.eeWindow = s.eeWindow.age

end Sys2Proof.Machine
end

