-- ==== Sys2Proof/Certificates/Slice0/Obligations.lean ====
section
/-! DEFINITION. The statements about the model, for the provers. Each is over every state of every device; a hypothesis
says where it holds. `OBLIGATIONS.json` names the rule of spec/ behind each. -/

open Sys2Proof Sys2Proof.Config Sys2Proof.Machine

/-! ## Reset and the invariant -/

/-- The values R41 and R261 give for reset, and two of the model's choice: no hold-off is in force (log 21), and no pin
holds a level request (log 41). The other values of the log (registers, SP, EEPROM address, ...) are not here. An
unwritten SRAM byte is log 4. -/
def Obligations.ResetValues : Prop :=
  State.reset.pc = 0 ∧ State.reset.sreg = 0 ∧ State.reset.rampz = 0 ∧ State.reset.eedr = 0 ∧
    State.reset.eerie = false ∧ State.reset.eemwe = false ∧ State.reset.irqFlags = 0 ∧ State.reset.irqLevels = 0 ∧
    State.reset.holdoff = false ∧ State.reset.asleep = false ∧ ∀ a, State.reset.mem.read .sram a = none

/-- The invariant holds after reset. -/
def Obligations.InvAtReset : Prop := State.reset.Inv

/-- Every step keeps the invariant and the launch parameters: an instruction, the entry of an interrupt, a turn of a
device, a reset. Program memory, SRAM, EEPROM and page buffer list only addresses they have. Who moves is the model's
own agenda (log 15). -/
def Obligations.StepKeepsInv : Prop :=
  ∀ s t : State, s.Inv → step s = .next t → t.Inv ∧ t.launch = s.launch

/-! ## Encoding -/

/-- Decoding the bytes of a well-formed instruction gives it back, under the name the decoder uses, and leaves the bytes
after it. -/
def Obligations.DecodeOfEncode : Prop :=
  ∀ (f : Features) (i : Instr) (rest : List Byte), WellFormed f i = true →
    decode f (bytesOf (encode i) ++ rest) = .instr i.canonical rest

/-- What decodes is the encoding of a well-formed instruction, so no two byte sequences decode to one instruction. -/
def Obligations.EncodeOfDecode : Prop :=
  ∀ (f : Features) (bs : List Byte) (i : Instr) (rest : List Byte), decode f bs = .instr i rest →
    bs = bytesOf (encode i) ++ rest ∧ WellFormed f i = true ∧ i.canonical = i

/-- Forms that are other names of one word have that word and one meaning; LPM and ELPM without operands have words of
their own and the meaning of the form with R0; LSL and ROL are the words of ADD and ADC with one register twice. -/
def Obligations.NamesOfOneWord : Prop :=
  (encode (.bset 0) = encode .sec ∧ encode (.bset 1) = encode .sez ∧ encode (.bset 2) = encode .sen ∧
      encode (.bset 3) = encode .sev ∧ encode (.bset 4) = encode .ses ∧ encode (.bset 5) = encode .seh ∧
      encode (.bset 6) = encode .setT ∧ encode (.bset 7) = encode .sei) ∧
    (encode (.bclr 0) = encode .clc ∧ encode (.bclr 1) = encode .clz ∧ encode (.bclr 2) = encode .cln ∧
      encode (.bclr 3) = encode .clv ∧ encode (.bclr 4) = encode .cls ∧ encode (.bclr 5) = encode .clh ∧
      encode (.bclr 6) = encode .clt ∧ encode (.bclr 7) = encode .cli) ∧
    (∀ d, encode (.lddY d 0) = encode (.ldY d) ∧ encode (.lddZ d 0) = encode (.ldZ d) ∧
      encode (.stdY 0 d) = encode (.stY d) ∧ encode (.stdZ 0 d) = encode (.stZ d)) ∧
    (∀ d, encode (.lsl d) = [encRR 0b000011 d d] ∧ encode (.rol d) = [encRR 0b000111 d d]) ∧
    (∀ i, encode i.canonical = encode i) ∧ (∀ i s, exec i.canonical s = exec i s) ∧
    (encode .lpm = [0x95C8] ∧ encode (.lpmZ 0) = [0x9004] ∧ ∀ s : State, exec .lpm s = exec (.lpmZ 0) s) ∧
    (encode .elpm = [0x95D8] ∧ encode (.elpmZ 0) = [0x9006] ∧ ∀ s : State, exec .elpm s = exec (.elpmZ 0) s)

/-- Words of the opcode table decode to the instruction they stand for, and words of absent forms are refused. -/
def Obligations.SampleWords : Prop :=
  decode .atmega32 [0x0F, 0xEF] = .instr (.ldi 16 0xFF) [] ∧
    decode .atmega32 [0x20, 0x90, 0x5F, 0x08] = .instr (.lds 2 0x085F) [] ∧
    decode .atmega32 [0xAF, 0xAC] = .instr (.lddY 10 63) [] ∧
    decode .atmega32 [0x2F, 0xBF] = .instr (.out 0x3F 18) [] ∧
    decode .atmega32 [0xFF, 0x98] = .instr (.cbi 0x1F 7) [] ∧
    decode .atmega32 [0x88, 0x0F] = .instr (.lsl 24) [] ∧
    decode .atmega32 [0x78, 0x94] = .instr .sei [] ∧
    decode .atmega32 [0x89, 0x0F] = .notInScope 0x0F89 ∧
    decode .atmega32 [0x18, 0x95] = .notInScope 0x9518 ∧
    decode .atmega32 [0x04, 0x93] = .notInScope 0x9304 ∧
    decode .reducedCore [0x1F, 0xA6] = .instr (.lds16 17 0xBF) []

/-! ## Registers and address spaces -/

/-- X, Y and Z are views of R27:R26, R29:R28 and R31:R30: each half is seen and written through the other name. -/
def Obligations.PointersAreViews : Prop :=
  ∀ s : State,
    (s.ptr .X = s.reg 27 ++ s.reg 26 ∧ s.ptr .Y = s.reg 29 ++ s.reg 28 ∧ s.ptr .Z = s.reg 31 ++ s.reg 30) ∧
      (∀ v, (s.setReg 26 v).ptr .X = s.reg 27 ++ v ∧ (s.setReg 27 v).ptr .X = v ++ s.reg 26) ∧
      (∀ v, (s.setReg 28 v).ptr .Y = s.reg 29 ++ v ∧ (s.setReg 29 v).ptr .Y = v ++ s.reg 28) ∧
      (∀ v, (s.setReg 30 v).ptr .Z = s.reg 31 ++ v ∧ (s.setReg 31 v).ptr .Z = v ++ s.reg 30) ∧
      (∀ v, (s.setPtr .X v).reg 26 = v.extractLsb' 0 8 ∧ (s.setPtr .X v).reg 27 = v.extractLsb' 8 8 ∧
        SameRegsBut [26, 27] s (s.setPtr .X v)) ∧
      (∀ v, (s.setPtr .Y v).reg 28 = v.extractLsb' 0 8 ∧ (s.setPtr .Y v).reg 29 = v.extractLsb' 8 8 ∧
        SameRegsBut [28, 29] s (s.setPtr .Y v)) ∧
      (∀ v, (s.setPtr .Z v).reg 30 = v.extractLsb' 0 8 ∧ (s.setPtr .Z v).reg 31 = v.extractLsb' 8 8 ∧
        SameRegsBut [30, 31] s (s.setPtr .Z v))

/-- The data address space of the ATmega32, and its I/O registers that the model has, by I/O address; every other I/O
address is unmodelled I/O. That 0x35 is told apart as MCUCR and 0x37 reaches SPMCR is the model's choice (log 7,
log 9): under another SLEEP_MODE, and without the SPM device, each is unmodelled, as is on any device an address beyond
IO_COUNT (log 39). The launch parameters are log 1. -/
def Obligations.AddressMapsOfAtmega32 : Prop :=
  (∀ a : Word,
    (a.toNat ≤ 0x001F → dataPlace Device.atmega32 a = .reg (BitVec.ofNat 5 a.toNat)) ∧
      (0x0020 ≤ a.toNat → a.toNat ≤ 0x005F → dataPlace Device.atmega32 a = .io (BitVec.ofNat 6 (a.toNat - 0x20))) ∧
      (0x0060 ≤ a.toNat → a.toNat ≤ 0x085F → dataPlace Device.atmega32 a = .sram a.toNat) ∧
      (0x085F < a.toNat → dataPlace Device.atmega32 a = .nothing a.toNat)) ∧
    ioReg Launch.atmega32 0x3F = .sreg ∧ ioReg Launch.atmega32 0x3E = .sph ∧ ioReg Launch.atmega32 0x3D = .spl ∧
    ioReg Launch.atmega32 0x1F = .eearh ∧ ioReg Launch.atmega32 0x1E = .eearl ∧ ioReg Launch.atmega32 0x1D = .eedr ∧
    ioReg Launch.atmega32 0x1C = .eecr ∧ ioReg Launch.atmega32 0x35 = .mcucr ∧ ioReg Launch.atmega32 0x37 = .spmcr ∧
    (∀ a : IoAddr, a ∉ [0x3F, 0x3E, 0x3D, 0x1F, 0x1E, 0x1D, 0x1C, 0x35, 0x37] →
      ioReg Launch.atmega32 a = .unmodelled) ∧
    (∀ m, m ≠ .mcucr → ioReg { Launch.atmega32 with sleepMode := m } 0x35 = .unmodelled) ∧
    ioReg { Launch.atmega32 with spmModel := .refuse } 0x37 = .unmodelled ∧
    ∀ (l : Launch) (a : IoAddr), l.device.ioCount ≤ a.toNat → ioReg l a = .unmodelled

/-- Program memory is little-endian when seen as bytes: an even byte address reads the low byte of its word, an odd one
the high byte; a word stored as its two bytes is read back as a word. -/
def Obligations.ProgramByteOrder : Prop :=
  (∀ (m : Memory) (ba : Nat),
      m.byte .flash ba =
        if ba % 2 = 0 then (m.progWord (ba / 2)).extractLsb' 0 8 else (m.progWord (ba / 2)).extractLsb' 8 8) ∧
    (∀ (m : Memory) (wa : Nat), m.progWord wa = 0xABCD →
      m.byte .flash (2 * wa) = 0xCD ∧ m.byte .flash (2 * wa + 1) = 0xAB) ∧
    ∀ (m : Memory) (wa : Nat) (w : Word),
      ((m.write .flash (2 * wa) (w.extractLsb' 0 8)).write .flash (2 * wa + 1) (w.extractLsb' 8 8)).progWord wa = w

/-! ## Register copies, constants, nibbles, bits -/

/-- MOV and MOVW copy; MOVW reads both source bytes before it writes either. -/
def Obligations.RegisterCopies : Prop :=
  (∀ d r s, ∃ t, exec (.mov d r) s = .next t ∧ t.reg d = s.reg r ∧ SameRegsBut [d] s t ∧ t.sreg = s.sreg ∧
      SameMem s t ∧ SameAside s t ∧ t.ioEvents = s.ioEvents ∧ Ended 1 s t) ∧
    ∀ d r s, evenReg d = true → evenReg r = true →
      ∃ t, exec (.movw d r) s = .next t ∧ t.reg d = s.reg r ∧ t.reg (d + 1) = s.reg (r + 1) ∧
        SameRegsBut [d, d + 1] s t ∧ t.sreg = s.sreg ∧ SameMem s t ∧ SameAside s t ∧ t.ioEvents = s.ioEvents ∧
        Ended 1 s t

/-- LDI loads its constant, whatever the state: it cannot stop. It names R16 to R31 only. -/
def Obligations.LoadImmediate : Prop :=
  (∀ d k s, ∃ t, exec (.ldi d k) s = .next t ∧ t.reg d = k ∧ SameRegsBut [d] s t ∧ t.sreg = s.sreg ∧ SameMem s t ∧
      SameAside s t ∧ t.ioEvents = s.ioEvents ∧ Ended 1 s t) ∧
    (∀ f d k, WellFormed f (.ldi d k) = true ↔ 16 ≤ d.toNat) ∧
    encode (.ldi 16 0xA5) = [0xEA05] ∧ encode (.ldi 31 0xFF) = [0xEFFF]

/-- SWAP exchanges the nibbles of a register and nothing else; two of them restore it. -/
def Obligations.SwapNibbles : Prop :=
  ∀ d s, ∃ t, exec (.swap d) s = .next t ∧
    (t.reg d).extractLsb' 4 4 = (s.reg d).extractLsb' 0 4 ∧ (t.reg d).extractLsb' 0 4 = (s.reg d).extractLsb' 4 4 ∧
    SameRegsBut [d] s t ∧ t.sreg = s.sreg ∧ SameMem s t ∧ SameAside s t ∧ t.ioEvents = s.ioEvents ∧ Ended 1 s t ∧
    ∃ u, exec (.swap d) t = .next u ∧ ∀ j, u.reg j = s.reg j

/-- BST copies a register bit to T, BLD copies T to a register bit; BST then BLD copies one bit between registers. -/
def Obligations.BitThroughT : Prop :=
  (∀ r b s, ∃ t, exec (.bst r b) s = .next t ∧ t.flag flagT = (s.reg r).getLsbD b.toNat ∧
      (∀ c, c ≠ flagT → t.flag c = s.flag c) ∧ SameRegsBut [] s t ∧ SameMem s t ∧ SameAside s t ∧
      t.ioEvents = s.ioEvents ∧ Ended 1 s t) ∧
    (∀ d b s, ∃ t, exec (.bld d b) s = .next t ∧
      (∀ n, n < 8 → (t.reg d).getLsbD n = if n = b.toNat then s.flag flagT else (s.reg d).getLsbD n) ∧
      SameRegsBut [d] s t ∧ t.sreg = s.sreg ∧ SameMem s t ∧ SameAside s t ∧ t.ioEvents = s.ioEvents ∧ Ended 1 s t) ∧
    ∀ r b d c s, ∃ t u, exec (.bst r b) s = .next t ∧ exec (.bld d c) t = .next u ∧
      (u.reg d).getLsbD c.toNat = (s.reg r).getLsbD b.toNat ∧ u.flag flagT = (s.reg r).getLsbD b.toNat

/-! ## Shifts and rotates -/

/-- LSL: every bit moves up, 0 enters bit 0, bit 7 goes to C, the old bit 3 to H: twice the register, the lost bit in
C. Its word is that of ADD Rd,Rd. -/
def Obligations.ShiftLeft : Prop :=
  (∀ d s, ∃ r : Byte, (∀ n, n < 8 → r.getLsbD n = (decide (0 < n) && (s.reg d).getLsbD (n - 1))) ∧
      2 * (s.reg d).toNat = (if (s.reg d).getLsbD 7 then 256 else 0) + r.toNat ∧
      ShiftsTo (.lsl d) d r ((s.reg d).getLsbD 7) (some ((s.reg d).getLsbD 3)) s) ∧
    (∀ d s, s.reg d = 0x80 → ShiftsTo (.lsl d) d 0x00 true (some false) s) ∧
    (∀ d s, s.reg d = 0x00 → ShiftsTo (.lsl d) d 0x00 false (some false) s) ∧
    (∀ s : State, s.reg 24 = 0xA5 → ∃ t, exec (.lsl 24) s = .next t ∧ t.reg 24 = 0x4A ∧ t.sreg.extractLsb' 0 6 = 0x19) ∧
    (∀ d, encode (.lsl d) = [0b000011#6 ++ d.extractLsb' 4 1 ++ d ++ d.extractLsb' 0 4]) ∧ encode (.lsl 24) = [0x0F88]

/-- LSR: every bit moves down, 0 enters bit 7, bit 0 goes to C, H is kept: half the register, the remainder in C; N is
0 and V and S equal C. -/
def Obligations.ShiftRight : Prop :=
  (∀ d s, ∃ r : Byte, (∀ n, n < 8 → r.getLsbD n = (s.reg d).getLsbD (n + 1)) ∧
      (s.reg d).toNat = 2 * r.toNat + (if (s.reg d).getLsbD 0 then 1 else 0) ∧
      ShiftsTo (.lsr d) d r ((s.reg d).getLsbD 0) none s) ∧
    (∀ d s t, exec (.lsr d) s = .next t →
      t.flag flagN = false ∧ t.flag flagV = t.flag flagC ∧ t.flag flagS = t.flag flagC) ∧
    (∀ d s, s.reg d = 0x01 → ShiftsTo (.lsr d) d 0x00 true none s) ∧
    (∀ s : State, s.reg 16 = 0xA5 → s.sreg = 0x00 → ∃ t, exec (.lsr 16) s = .next t ∧ t.reg 16 = 0x52 ∧ t.sreg = 0x19) ∧
    encode (.lsr 16) = [0x9506]

/-- ROL: as LSL, but the old C enters bit 0: C and the register rotate together as nine bits, so nine of them restore
both. Its word is that of ADC Rd,Rd. -/
def Obligations.RotateLeft : Prop :=
  (∀ d s, ∃ r : Byte, (∀ n, n < 8 → r.getLsbD n = if n = 0 then s.flag flagC else (s.reg d).getLsbD (n - 1)) ∧
      ShiftsTo (.rol d) d r ((s.reg d).getLsbD 7) (some ((s.reg d).getLsbD 3)) s) ∧
    (∀ d s, ∃ t, execTimes (.rol d) 9 s = .next t ∧ (∀ j, t.reg j = s.reg j) ∧ t.flag flagC = s.flag flagC) ∧
    (∀ d s, s.reg d = 0x80 → s.flag flagC = false → ShiftsTo (.rol d) d 0x00 true (some false) s) ∧
    (∀ d s, s.reg d = 0x80 → s.flag flagC = true → ShiftsTo (.rol d) d 0x01 true (some false) s) ∧
    (∀ s : State, s.reg 25 = 0xA5 → s.sreg = 0x01 → ∃ t, exec (.rol 25) s = .next t ∧ t.reg 25 = 0x4B ∧ t.sreg = 0x19) ∧
    (∀ d, encode (.rol d) = [0b000111#6 ++ d.extractLsb' 4 1 ++ d ++ d.extractLsb' 0 4]) ∧ encode (.rol 25) = [0x1F99]

/-- ROR: as LSR, but the old C enters bit 7, so N is the old C. -/
def Obligations.RotateRight : Prop :=
  (∀ d s, ∃ r : Byte, (∀ n, n < 8 → r.getLsbD n = if n = 7 then s.flag flagC else (s.reg d).getLsbD (n + 1)) ∧
      ShiftsTo (.ror d) d r ((s.reg d).getLsbD 0) none s) ∧
    (∀ d s t, exec (.ror d) s = .next t → t.flag flagN = s.flag flagC) ∧
    (∀ d s, s.reg d = 0x01 → s.flag flagC = false → ShiftsTo (.ror d) d 0x00 true none s) ∧
    (∀ d s, s.reg d = 0x00 → s.flag flagC = true → ShiftsTo (.ror d) d 0x80 false none s) ∧
    (∀ s : State, s.reg 16 = 0xA5 → s.sreg = 0x01 → ∃ t, exec (.ror 16) s = .next t ∧ t.reg 16 = 0xD2 ∧ t.sreg = 0x15) ∧
    encode (.ror 16) = [0x9507]

/-- ASR: as LSR, but bit 7 keeps its value: a signed divide by two that rounds toward minus infinity. -/
def Obligations.ArithmeticShiftRight : Prop :=
  (∀ d s, ∃ r : Byte, (∀ n, n < 8 → r.getLsbD n = (s.reg d).getLsbD (if n = 7 then 7 else n + 1)) ∧
      r.toInt = (s.reg d).toInt / 2 ∧ ShiftsTo (.asr d) d r ((s.reg d).getLsbD 0) none s) ∧
    (∀ d s, s.reg d = 0xFF → ShiftsTo (.asr d) d 0xFF true none s) ∧
    (∀ d s, s.reg d = 0x80 → ShiftsTo (.asr d) d 0xC0 false none s) ∧
    (∀ d s, s.reg d = 0x01 → ShiftsTo (.asr d) d 0x00 true none s) ∧
    (∀ s : State, s.reg 17 = 0xA5 → s.sreg = 0x00 → ∃ t, exec (.asr 17) s = .next t ∧ t.reg 17 = 0xD2 ∧ t.sreg = 0x15) ∧
    encode (.asr 17) = [0x9515]

/-! ## SREG bits -/

/-- BSET, BCLR and the sixteen named forms write one bit of SREG and nothing else; setting I also begins the hold-off,
and is refused where the model takes no interrupts. -/
def Obligations.OneFlagWritten : Prop :=
  (∀ i b s, setsFlag i = some b → (b = flagI → s.launch.interruptModel = .agent) →
      ∃ t, exec i s = .next t ∧ t.flag b = true ∧ (∀ c, c ≠ b → t.flag c = s.flag c) ∧ SameRegsBut [] s t ∧
        SameMem s t ∧ SameAside s t ∧ t.ioEvents = s.ioEvents ∧ (t.holdoff = true ↔ b = flagI) ∧ WindowsAged s t ∧
        t.pc.toNat = (s.pc.toNat + 1) % 2 ^ s.launch.device.pcBits % 65536) ∧
    (∀ i b s, clearsFlag i = some b →
      ∃ t, exec i s = .next t ∧ t.flag b = false ∧ (∀ c, c ≠ b → t.flag c = s.flag c) ∧ SameRegsBut [] s t ∧
        SameMem s t ∧ SameAside s t ∧ t.ioEvents = s.ioEvents ∧ Ended 1 s t) ∧
    ∀ i s, setsFlag i = some flagI → s.launch.interruptModel = .none →
      exec i s = .refused .interruptsNotModelled

/-- SEC, SEN, SEZ, SES, SEV, SET and SEH: the word, the flag set whatever it was, and nothing else changed. -/
def Obligations.NamedSetForms : Prop :=
  FlagForm .sec (.bset 0) 0x9408 0 true 0x00 0x01 ∧ FlagForm .sen (.bset 2) 0x9428 2 true 0x00 0x04 ∧
    FlagForm .sez (.bset 1) 0x9418 1 true 0x00 0x02 ∧ FlagForm .ses (.bset 4) 0x9448 4 true 0x00 0x10 ∧
    FlagForm .sev (.bset 3) 0x9438 3 true 0x00 0x08 ∧ FlagForm .setT (.bset 6) 0x9468 6 true 0x00 0x40 ∧
    FlagForm .seh (.bset 5) 0x9458 5 true 0x00 0x20

/-- CLC, CLN, CLZ, CLS, CLV, CLT and CLH: the word, the flag cleared whatever it was, and nothing else changed. -/
def Obligations.NamedClearForms : Prop :=
  FlagForm .clc (.bclr 0) 0x9488 0 false 0xFF 0xFE ∧ FlagForm .cln (.bclr 2) 0x94A8 2 false 0xFF 0xFB ∧
    FlagForm .clz (.bclr 1) 0x9498 1 false 0xFF 0xFD ∧ FlagForm .cls (.bclr 4) 0x94C8 4 false 0xFF 0xEF ∧
    FlagForm .clv (.bclr 3) 0x94B8 3 false 0xFF 0xF7 ∧ FlagForm .clt (.bclr 6) 0x94E8 6 false 0xFF 0xBF ∧
    FlagForm .clh (.bclr 5) 0x94D8 5 false 0xFF 0xDF

/-! ## Loads -/

/-- LDS (both lengths), LD Rd,X/Y/Z and LDD: where the data address holds a byte, it is loaded; only Rd changes, and a
read of an unmodelled I/O register is recorded. An SRAM byte that nothing has written faults (log 4); an address where
nothing is implemented is refused. -/
def Obligations.PlainLoads : Prop :=
  ∀ i d a (s : State), loadForm s i = some (d, a) →
    (∀ v, s.dataByte a = some v →
        ∃ t, exec i s = .next t ∧ t.reg d = v ∧ SameRegsBut [d] s t ∧ t.sreg = s.sreg ∧ SameMem s t ∧
          SameAside s t ∧ t.ioEvents = s.eventsAfterRead a ∧ Ended i.words s t) ∧
      (∀ b, dataPlace s.launch.device a = .sram b → s.mem.read .sram b = none →
        exec i s = .fault (.readUnwritten b)) ∧
      ∀ b, dataPlace s.launch.device a = .nothing b → exec i s = .refused (.unimplementedDataAddress b)

/-- LD with post-increment and pre-decrement: the undefined combinations fault; else where the data address holds a
byte, it is loaded and the pointer is updated, modulo 65536; the stops are those of a plain load. Where the whole data
space has at most 256 bytes the low register alone is the pointer, the high one is kept, and the update is modulo 256
(the modulus is the model's choice, log 45). -/
def Obligations.UpdatingLoads : Prop :=
  (∀ (s : State) p n,
    if s.launch.device.ioBase + s.launch.device.ioCount ≤ 256 ∧ s.launch.device.ramEnd < 256 then
      (s.dataPtr p).toNat = (s.reg p.lo).toNat ∧ (s.movedPtr p n).toNat = ((s.reg p.lo).toNat + n.toNat) % 256
    else s.dataPtr p = s.ptr p ∧ s.movedPtr p n = s.ptr p + n) ∧
  ∀ i p pre d (s : State), updLoadForm i = some (p, pre, d) →
    (s.undefinedUpd p pre d = true → exec i s = .fault .undefinedOperandCombination) ∧
      (s.undefinedUpd p pre d = false →
        (∀ v, s.dataByte (s.updAddr p pre) = some v →
            ∃ t, exec i s = .next t ∧ t.reg d = v ∧ t.dataPtr p = s.updPtr p pre ∧ KeepsHigh p s t ∧
              SameRegsBut [d, p.lo, p.hi] s t ∧ t.sreg = s.sreg ∧ SameMem s t ∧ SameAside s t ∧ t.ioEvents = s.eventsAfterRead (s.updAddr p pre) ∧
              Ended 1 s t) ∧
          (∀ b, dataPlace s.launch.device (s.updAddr p pre) = .sram b → s.mem.read .sram b = none →
            exec i s = .fault (.readUnwritten b)) ∧
          ∀ b, dataPlace s.launch.device (s.updAddr p pre) = .nothing b →
            exec i s = .refused (.unimplementedDataAddress b))

/-! ## Stores -/

/-- STS (both lengths), ST X/Y/Z and STD: by what the data address reaches, Rr goes to a general register, to an I/O
register as OUT writes it, or to one byte of SRAM; a store where nothing is implemented is refused. An I/O register the
spec does not model is log 18. -/
def Obligations.PlainStores : Prop :=
  ∀ i r a s, storeForm s i = some (r, a) →
    match dataPlace s.launch.device a with
    | .reg k =>
      ∃ t, exec i s = .next t ∧ t.reg k = s.reg r ∧ SameRegsBut [k] s t ∧ t.sreg = s.sreg ∧ SameMem s t ∧
        SameAside s t ∧ t.ioEvents = s.ioEvents ∧ Ended i.words s t
    | .io b => exec i s = finish i.words (ioWrite s b (s.reg r))
    | .sram b =>
      ∃ t, exec i s = .next t ∧ t.mem.read .sram b = some (s.reg r) ∧ SameMemBut .sram (fun c => c = b) s t ∧
        SameRegsBut [] s t ∧ t.sreg = s.sreg ∧ SameAside s t ∧ t.ioEvents = s.ioEvents ∧ Ended i.words s t
    | .nothing b => exec i s = .refused (.unimplementedDataAddress b)

/-- ST with post-increment and pre-decrement: the undefined combinations fault; else Rr goes where the address says, as
in a plain store, and the pointer is updated as by a load. -/
def Obligations.UpdatingStores : Prop :=
  ∀ i p pre r s, updStoreForm i = some (p, pre, r) →
    (s.undefinedUpd p pre r = true → exec i s = .fault .undefinedOperandCombination) ∧
      (s.undefinedUpd p pre r = false →
        match dataPlace s.launch.device (s.updAddr p pre) with
        | .reg k =>
          ∃ t, exec i s = .next t ∧ t.reg k = s.reg r ∧ t.dataPtr p = s.updPtr p pre ∧ KeepsHigh p s t ∧
            SameRegsBut [k, p.lo, p.hi] s t ∧ t.sreg = s.sreg ∧ SameMem s t ∧ SameAside s t ∧ t.ioEvents = s.ioEvents ∧ Ended 1 s t
        | .io b =>
          exec i s = finish 1 (andThen (ioWrite s b (s.reg r)) fun t => .next (t.setDataPtr p (s.updPtr p pre)))
        | .sram b =>
          ∃ t, exec i s = .next t ∧ t.mem.read .sram b = some (s.reg r) ∧ SameMemBut .sram (fun c => c = b) s t ∧
            t.dataPtr p = s.updPtr p pre ∧ KeepsHigh p s t ∧ SameRegsBut [p.lo, p.hi] s t ∧ t.sreg = s.sreg ∧ SameAside s t ∧
            t.ioEvents = s.ioEvents ∧ Ended 1 s t
        | .nothing b => exec i s = .refused (.unimplementedDataAddress b))

/-! ## Program memory -/

/-- LPM, LPM Rd,Z and LPM Rd,Z+: an implemented byte of program memory goes to R0 or Rd, and with Z+ the pointer is one
more modulo 65536; nothing else changes. In a busy section, and next to a setting of BLBSET, the byte is a free value
(the model's choice, log 13, log 14). Beyond FLASH_WORDS the read is refused; `LPM R30,Z+` and `LPM R31,Z+` fault. -/
def Obligations.LpmReads : Prop :=
  (∀ i d (s : State), (i = .lpm ∧ d = 0 ∨ i = .lpmZ d) → (s.ptr .Z).toNat / 2 < s.launch.device.flashWords →
      ∃ t, exec i s = .next t ∧
        (s.progReadable (s.ptr .Z).toNat → s.readsLockBits = false → t.reg d = s.progByte (s.ptr .Z).toNat) ∧
        SameRegsBut [d] s t ∧ t.sreg = s.sreg ∧ SameMem s t ∧ SameAside s t ∧ t.ioEvents = s.ioEvents ∧
        Ended 1 s t) ∧
    (∀ d (s : State), d ≠ 30 → d ≠ 31 → (s.ptr .Z).toNat / 2 < s.launch.device.flashWords →
      ∃ t, exec (.lpmZInc d) s = .next t ∧
        (s.progReadable (s.ptr .Z).toNat → s.readsLockBits = false → t.reg d = s.progByte (s.ptr .Z).toNat) ∧
        t.ptr .Z = s.ptr .Z + 1 ∧ SameRegsBut [d, 30, 31] s t ∧ t.sreg = s.sreg ∧ SameMem s t ∧ SameAside s t ∧
        t.ioEvents = s.ioEvents ∧ Ended 1 s t) ∧
    (∀ d (s : State), d = 30 ∨ d = 31 → exec (.lpmZInc d) s = .fault .undefinedOperandCombination) ∧
    ∀ i d (s : State), (i = .lpm ∨ i = .lpmZ d ∨ i = .lpmZInc d ∧ d ≠ 30 ∧ d ≠ 31) →
      s.launch.device.flashWords ≤ (s.ptr .Z).toNat / 2 →
      exec i s = .refused (.unimplementedProgramAddress (s.ptr .Z).toNat)

/-- ELPM, ELPM Rd,Z and ELPM Rd,Z+: the byte at RAMPZ : Z goes to R0 or Rd, and with Z+ all 24 bits of RAMPZ : Z are
one more, the bits of RAMPZ that are not implemented reading 0; nothing else changes. The stops are those of LPM. Busy
sections are log 13, the bits of RAMPZ log 30. -/
def Obligations.ElpmReads : Prop :=
  (∀ i d (s : State), (i = .elpm ∧ d = 0 ∨ i = .elpmZ d) →
      (s.rampz ++ s.ptr .Z).toNat / 2 < s.launch.device.flashWords →
      ∃ t, exec i s = .next t ∧
        (s.progReadable (s.rampz ++ s.ptr .Z).toNat → t.reg d = s.progByte (s.rampz ++ s.ptr .Z).toNat) ∧
        SameRegsBut [d] s t ∧ t.sreg = s.sreg ∧ SameMem s t ∧ SameAside s t ∧ t.ioEvents = s.ioEvents ∧
        Ended 1 s t) ∧
    (∀ d (s : State), d ≠ 30 → d ≠ 31 → (s.rampz ++ s.ptr .Z).toNat / 2 < s.launch.device.flashWords →
      ∃ t, exec (.elpmZInc d) s = .next t ∧
        (s.progReadable (s.rampz ++ s.ptr .Z).toNat → t.reg d = s.progByte (s.rampz ++ s.ptr .Z).toNat) ∧
        t.ptr .Z = s.ptr .Z + 1 ∧
        (∀ n, n < 8 → t.rampz.getLsbD n = (decide (n < rampzBits s.launch.device) &&
          (if s.ptr .Z = 0xFFFF then s.rampz + 1 else s.rampz).getLsbD n)) ∧
        t.sp = s.sp ∧ SameRegsBut [d, 30, 31] s t ∧ t.sreg = s.sreg ∧ SameMem s t ∧ SameEeprom s t ∧ SameSpm s t ∧
        SameControl s t ∧ t.ioEvents = s.ioEvents ∧ Ended 1 s t) ∧
    (∀ d (s : State), d = 30 ∨ d = 31 → exec (.elpmZInc d) s = .fault .undefinedOperandCombination) ∧
    ∀ i d (s : State), (i = .elpm ∨ i = .elpmZ d ∨ i = .elpmZInc d ∧ d ≠ 30 ∧ d ≠ 31) →
      s.launch.device.flashWords ≤ (s.rampz ++ s.ptr .Z).toNat / 2 →
      exec i s = .refused (.unimplementedProgramAddress (s.rampz ++ s.ptr .Z).toNat)

/-! ## SPM -/

/-- SPM with SPMEN alone: R1:R0 goes into the page buffer at the word index from the low bits of Z; no other byte of
any memory changes. On the ATmega32 the word index is Z[6:1] and the page is Z[14:7]; bit 0 of Z is ignored. SPMCR and
its window are the model's: log 9, log 10. -/
def Obligations.SpmFillsBuffer : Prop :=
  (∀ s : State, SpmReady 0b00001 s →
    ∃ t, exec .spm s = .next t ∧ t.mem.read .pageBuffer (2 * s.spmIndex) = some (s.reg 0) ∧
      t.mem.read .pageBuffer (2 * s.spmIndex + 1) = some (s.reg 1) ∧
      SameMemBut .pageBuffer (fun a => a = 2 * s.spmIndex ∨ a = 2 * s.spmIndex + 1) s t ∧ SpmEnds s t ∧
      t.lockBits = s.lockBits ∧ t.spmcr.getLsbD 6 = s.spmcr.getLsbD 6) ∧
    ∀ s : State, s.launch.device = Device.atmega32 →
    s.spmIndex = ((s.ptr .Z).extractLsb' 1 6).toNat ∧ s.spmPage = 128 * ((s.ptr .Z).extractLsb' 7 8).toNat

/-- SPM with PGERS or PGWRT in the no-read-while-write section: the core is halted until the page reads erased, or as
the page buffer did; no other byte of program memory changes. After a page write the buffer is erased (the model's
choice, log 12). The sections are log 11, SPMCR log 9. -/
def Obligations.SpmErasesAndWritesPage : Prop :=
  (∀ s : State, SpmReady 0b00011 s → s.launch.device.nrwwStart ≤ s.spmPage / 2 →
    ∃ t, exec .spm s = .next t ∧
      (∀ a, s.spmPage ≤ a → a < s.spmPage + pageBytes s.launch.device → t.mem.read .flash a = some 0xFF) ∧
      SameMemBut .flash (fun a => s.spmPage ≤ a ∧ a < s.spmPage + pageBytes s.launch.device) s t ∧
      SpmEnds s t ∧ t.lockBits = s.lockBits) ∧
    ∀ s : State, SpmReady 0b00101 s → s.launch.device.nrwwStart ≤ s.spmPage / 2 →
    ∃ t, exec .spm s = .next t ∧
      (∀ n, n < pageBytes s.launch.device → t.mem.read .flash (s.spmPage + n) = s.mem.read .pageBuffer n) ∧
      (∀ n, t.mem.read .pageBuffer n = some 0xFF) ∧
      (∀ sp a, sp ≠ .pageBuffer →
        ¬(sp = .flash ∧ s.spmPage ≤ a ∧ a < s.spmPage + pageBytes s.launch.device) →
        t.mem.read sp a = s.mem.read sp a) ∧
      SpmEnds s t ∧ t.lockBits = s.lockBits

/-- SPM with PGERS or PGWRT in the read-while-write section: the job starts and RWWSB is set, no memory changes; when
the write unit's turn comes the job is done, and SPMEN is clear. The sections are log 11, SPMCR log 9. -/
def Obligations.SpmRunsBesideCore : Prop :=
  ∀ s j, (SpmReady 0b00011 s ∧ j = .erase s.spmPage ∨ SpmReady 0b00101 s ∧ j = .write s.spmPage) →
    s.spmPage / 2 < s.launch.device.nrwwStart →
    ∃ t, exec .spm s = .next t ∧ t.spmJob = some j ∧ t.spmcr.getLsbD 6 = true ∧ SameMem s t ∧ SameRegsBut [] s t ∧
      t.sreg = s.sreg ∧ SameStack s t ∧ SameEeprom s t ∧ SameControl s t ∧ t.lockBits = s.lockBits ∧ t.ioEvents = s.ioEvents ∧ Advanced 1 s t ∧
      (deviceEvent .spmDone t).spmJob = none ∧ (deviceEvent .spmDone t).spmcr.getLsbD 0 = false ∧
      (∀ n, n < pageBytes s.launch.device → (deviceEvent .spmDone t).mem.read .flash (s.spmPage + n) =
        if j = .erase s.spmPage then some 0xFF else s.mem.read .pageBuffer n) ∧
      (∀ a, ¬(s.spmPage ≤ a ∧ a < s.spmPage + pageBytes s.launch.device) →
        (deviceEvent .spmDone t).mem.read .flash a = s.mem.read .flash a)

/-- SPM with BLBSET clears the boot lock bits that are 0 in R0, and with RWWSRE re-enables the read-while-write
section; no byte of program memory changes. What the lock bits are is log 14, SPMCR log 9. -/
def Obligations.SpmLockBitsAndReenable : Prop :=
  (∀ s : State, SpmReady 0b01001 s → ∃ t, exec .spm s = .next t ∧
      (∀ n, n < 8 → t.lockBits.getLsbD n =
        (s.lockBits.getLsbD n && (decide (n < 2 ∨ 5 < n) || (s.reg 0).getLsbD n))) ∧
      SameMem s t ∧ SpmEnds s t) ∧
    ∀ s : State, SpmReady 0b10001 s → ∃ t, exec .spm s = .next t ∧ t.spmcr.getLsbD 6 = false ∧
      (∀ wa, t.sectionBusy wa = false) ∧ (∀ sp a, sp ≠ .pageBuffer → t.mem.read sp a = s.mem.read sp a) ∧
      SpmEnds s t ∧ t.lockBits = s.lockBits

/-- SPM completes wherever the model has the SPM device. Executed without the SPMCR sequence, outside the boot-loader
section, or while an operation runs, it changes nothing but what the end of an instruction changes. SPM Z+ does what SPM
does, and Z is two more, also where SPM does nothing (the model's choice, log 47). Without the device both are refused.
The launch parameter is log 9. -/
def Obligations.SpmCompletes : Prop :=
  (∀ s : State, s.launch.spmModel = .device →
    (s.spmWindow = .closed ∨ s.pc.toNat < s.launch.device.bootStart ∨ s.spmJob.isSome = true) →
    ∃ t, exec .spm s = .next t ∧ OnlyEnded 1 s t) ∧
    (∀ s : State, s.launch.spmModel = .device → ∃ t u, exec .spm s = .next t ∧ exec .spmZInc s = .next u ∧
      u.ptr .Z = s.ptr .Z + 2 ∧ SameRegsBut [30, 31] t u ∧ u.sreg = t.sreg ∧ SameMem t u ∧ SameAside t u ∧
      u.ioEvents = t.ioEvents ∧ u.pc = t.pc ∧ u.spmWindow = t.spmWindow ∧ u.eeWindow = t.eeWindow) ∧
    ∀ s : State, s.launch.spmModel = .refuse → exec .spm s = .refused .spmUnmodelled ∧ exec .spmZInc s = .refused .spmUnmodelled

/-! ## I/O -/

/-- IN: the value of each I/O register. EECR reads 0000 : EERIE : EEMWE : EEWE : 0. A register the spec does not model
reads as a free value, and the read is recorded; MCUCR is one of these. SPMCR is log 9, MCUCR log 7, the free value
log 18. -/
def Obligations.InReads : Prop :=
  ∀ d a s, ∃ t, exec (.inp d a) s = .next t ∧ SameRegsBut [d] s t ∧ t.sreg = s.sreg ∧ SameMem s t ∧ SameAside s t ∧
    Ended 1 s t ∧
    match ioReg s.launch a with
    | .sreg => t.reg d = s.sreg ∧ t.ioEvents = s.ioEvents
    | .sph => t.reg d = s.sp.extractLsb' 8 8 ∧ t.ioEvents = s.ioEvents
    | .spl => t.reg d = s.sp.extractLsb' 0 8 ∧ t.ioEvents = s.ioEvents
    | .rampz => t.reg d = s.rampz ∧ t.ioEvents = s.ioEvents
    | .eearh => t.reg d = s.eearh ∧ t.ioEvents = s.ioEvents
    | .eearl => t.reg d = s.eearl ∧ t.ioEvents = s.ioEvents
    | .eedr => t.reg d = s.eedr ∧ t.ioEvents = s.ioEvents
    | .eecr =>
      (t.reg d).extractLsb' 4 4 = 0 ∧ (t.reg d).getLsbD 3 = s.eerie ∧
        (s.eeWindow = .closed → (t.reg d).getLsbD 2 = false) ∧ (s.eeWindow = .open → (t.reg d).getLsbD 2 = true) ∧
        (t.reg d).getLsbD 1 = s.eeWrite.isSome ∧ (t.reg d).getLsbD 0 = false ∧ t.ioEvents = s.ioEvents
    | .spmcr => (t.reg d).extractLsb' 6 2 = s.spmcr.extractLsb' 6 2 ∧ t.ioEvents = s.ioEvents
    | .mcucr | .unmodelled => t.reg d = ioDraw s.draws a ∧ t.ioEvents = .read a (ioDraw s.draws a) :: s.ioEvents

/-- OUT to SREG, SPH, SPL, RAMPZ, SPMCR and to a register the spec does not model, whose write is recorded; MCUCR is one
of these, and its SE is kept besides, for SLEEP. With SPMEN = 1 a write of SPMCR
opens the window for SPM and selects the operation, so that next, in the boot-loader section, SPM acts; with SPMEN = 0
it closes the window and the selecting bits read 0 (the model's choice, log 42); while an operation runs it writes only
SPMIE; RWWSB is never written. MCUCR is log 7, SPMCR log 9 and log 10, the recorded write log 18. -/
def Obligations.OutWrites : Prop :=
  ∀ a r s,
    match ioReg s.launch a with
    | .sreg =>
      if s.launch.interruptModel = .none ∧ (s.reg r).getLsbD 7 = true then
        exec (.out a r) s = .refused .interruptsNotModelled
      else
        ∃ t, exec (.out a r) s = .next t ∧ t.sreg = s.reg r ∧ SameRegsBut [] s t ∧ SameMem s t ∧ SameAside s t ∧
          t.ioEvents = s.ioEvents ∧ Ended 1 s t
    | .sph =>
      ∃ t, exec (.out a r) s = .next t ∧
        (∀ n, n < 16 → t.sp.getLsbD n = (decide (n < s.launch.device.spBits) &&
          if n < 8 then s.sp.getLsbD n else (s.reg r).getLsbD (n - 8))) ∧
        t.rampz = s.rampz ∧ SameRegsBut [] s t ∧ t.sreg = s.sreg ∧ SameMem s t ∧ SameEeprom s t ∧ SameSpm s t ∧
        SameControl s t ∧ t.ioEvents = s.ioEvents ∧ Ended 1 s t
    | .spl =>
      ∃ t, exec (.out a r) s = .next t ∧
        (∀ n, n < 16 → t.sp.getLsbD n = (decide (n < s.launch.device.spBits) &&
          if n < 8 then (s.reg r).getLsbD n else s.sp.getLsbD n)) ∧
        t.rampz = s.rampz ∧ SameRegsBut [] s t ∧ t.sreg = s.sreg ∧ SameMem s t ∧ SameEeprom s t ∧ SameSpm s t ∧
        SameControl s t ∧ t.ioEvents = s.ioEvents ∧ Ended 1 s t
    | .rampz =>
      ∃ t, exec (.out a r) s = .next t ∧
        (∀ n, n < 8 → t.rampz.getLsbD n = (decide (n < rampzBits s.launch.device) && (s.reg r).getLsbD n)) ∧
        t.sp = s.sp ∧ SameRegsBut [] s t ∧ t.sreg = s.sreg ∧ SameMem s t ∧ SameEeprom s t ∧ SameSpm s t ∧
        SameControl s t ∧ t.ioEvents = s.ioEvents ∧ Ended 1 s t
    | .mcucr =>
      ∃ t, exec (.out a r) s = .next t ∧ t.mcucr = s.reg r ∧ t.irqFlags = s.irqFlags ∧
        t.irqLevels = s.irqLevels ∧ t.irqEnables = s.irqEnables ∧ t.asleep = s.asleep ∧ t.watchdog = s.watchdog ∧ t.agenda = s.agenda ∧ t.launch = s.launch ∧
        SameRegsBut [] s t ∧ t.sreg = s.sreg ∧ SameMem s t ∧ SameStack s t ∧ SameEeprom s t ∧ SameSpm s t ∧
        t.ioEvents = .write a (s.reg r) :: s.ioEvents ∧ Ended 1 s t
    | .unmodelled =>
      ∃ t, exec (.out a r) s = .next t ∧ t.ioEvents = .write a (s.reg r) :: s.ioEvents ∧ SameRegsBut [] s t ∧
        t.sreg = s.sreg ∧ SameMem s t ∧ SameAside s t ∧ Ended 1 s t
    | .spmcr =>
      ∃ t, exec (.out a r) s = .next t ∧
        (if s.spmJob.isSome = true then
          t.spmWindow = s.spmWindow.age ∧
            ∀ n, n < 8 → t.spmcr.getLsbD n = if n = 7 then (s.reg r).getLsbD 7 else s.spmcr.getLsbD n
        else if (s.reg r).getLsbD 0 = true then
          t.spmWindow = .open ∧
            (∀ n, n < 8 → t.spmcr.getLsbD n =
              if n = 6 then s.spmcr.getLsbD 6 else decide (n ≠ 5) && (s.reg r).getLsbD n) ∧
            (s.launch.device.bootStart ≤ t.pc.toNat → SpmReady ((s.reg r).extractLsb' 0 5) t)
        else
          t.spmWindow = .closed ∧
            ∀ n, n < 8 → t.spmcr.getLsbD n =
              if n = 6 then s.spmcr.getLsbD 6 else decide (n = 7) && (s.reg r).getLsbD n) ∧
        t.spmJob = s.spmJob ∧ t.lockBits = s.lockBits ∧ SameRegsBut [] s t ∧ t.sreg = s.sreg ∧ SameMem s t ∧
        SameStack s t ∧ SameEeprom s t ∧ SameControl s t ∧ t.ioEvents = s.ioEvents ∧ Advanced 1 s t ∧
        t.eeWindow = s.eeWindow.age
    | .eearh | .eearl | .eedr | .eecr => True

/-- OUT to EEARH, EEARL and EEDR: the register is written, the upper six bits of EEARH reading 0; while a write is in
progress each is a misuse. -/
def Obligations.EepromRegistersWritten : Prop :=
  ∀ a r s,
    (s.eeWrite.isSome = true → ioReg s.launch a = .eearh ∨ ioReg s.launch a = .eearl ∨ ioReg s.launch a = .eedr →
        exec (.out a r) s = .fault .eepromMisuse) ∧
      (s.eeWrite = none → ioReg s.launch a = .eearh ∨ ioReg s.launch a = .eearl ∨ ioReg s.launch a = .eedr →
        ∃ t, exec (.out a r) s = .next t ∧
          t.eearh = (if ioReg s.launch a = .eearh then 0#6 ++ (s.reg r).extractLsb' 0 2 else s.eearh) ∧
          t.eearl = (if ioReg s.launch a = .eearl then s.reg r else s.eearl) ∧
          t.eedr = (if ioReg s.launch a = .eedr then s.reg r else s.eedr) ∧ t.eerie = s.eerie ∧
          t.eeWrite = s.eeWrite ∧ SameRegsBut [] s t ∧ t.sreg = s.sreg ∧ SameMem s t ∧ SameStack s t ∧ SameSpm s t ∧
          SameControl s t ∧ t.ioEvents = s.ioEvents ∧ Ended 1 s t)

/-- SBI and CBI are a read of the I/O register and a write of the whole byte with the one bit changed; a device may act
between the two, where the agenda says so. On a register the spec does not model the read and the write are recorded,
and nothing else changes. On EEDR, with no write in progress, the one bit changes. The agenda is log 15 and log 35. -/
def Obligations.IoBitWritten : Prop :=
  (∀ a b (s : State),
    (s.noMidTurn →
        exec (.sbi a b) s = finish 1 (ioWrite (ioRead s a).2 a ((ioRead s a).1 ||| (1#8 <<< b.toNat))) ∧
          exec (.cbi a b) s = finish 1 (ioWrite (ioRead s a).2 a ((ioRead s a).1 &&& ~~~(1#8 <<< b.toNat)))) ∧
      ∀ e rest, s.agenda = .mid e :: rest →
        exec (.sbi a b) s = finish 1 (ioWrite (deviceEvent e { (ioRead s a).2 with agenda := rest }) a
            ((ioRead s a).1 ||| (1#8 <<< b.toNat))) ∧
          exec (.cbi a b) s = finish 1 (ioWrite (deviceEvent e { (ioRead s a).2 with agenda := rest }) a
            ((ioRead s a).1 &&& ~~~(1#8 <<< b.toNat)))) ∧
    ∀ a b (x : Bool) (s : State), s.noMidTurn →
      (ioReg s.launch a = .unmodelled →
          ∃ t v w, exec (if x then .sbi a b else .cbi a b) s = .next t ∧
            t.ioEvents = .write a w :: .read a v :: s.ioEvents ∧
            (∀ n, n < 8 → w.getLsbD n = if n = b.toNat then x else v.getLsbD n) ∧ SameRegsBut [] s t ∧
            t.sreg = s.sreg ∧ SameMem s t ∧ SameAside s t ∧ Ended 1 s t) ∧
        (ioReg s.launch a = .eedr → s.eeWrite = none →
          ∃ t, exec (if x then .sbi a b else .cbi a b) s = .next t ∧
            (∀ n, n < 8 → t.eedr.getLsbD n = if n = b.toNat then x else s.eedr.getLsbD n) ∧ t.eearh = s.eearh ∧
            t.eearl = s.eearl ∧ t.eerie = s.eerie ∧ t.eeWrite = s.eeWrite ∧ SameRegsBut [] s t ∧ t.sreg = s.sreg ∧
            SameMem s t ∧ SameStack s t ∧ SameSpm s t ∧ SameControl s t ∧ t.ioEvents = s.ioEvents ∧ Ended 1 s t)

/-! ## The EEPROM -/

/-- A write of EECR with EERE = 0. EERIE is an ordinary bit; with EEWE = 0, EEMWE = 1 opens the window for the next
instruction and EEMWE = 0 closes it. Setting EEWE while a write is in progress has no effect; with EEMWE = 0 it has none
and EEWE stays 0; with the window open it starts a write of EEDR to the EEPROM address of this moment, and closes the
window. -/
def Obligations.EecrWritten : Prop :=
  (∀ a r s, ioReg s.launch a = .eecr → (s.reg r).getLsbD 0 = false →
      ((s.reg r).getLsbD 1 = false ∨ s.eeWrite.isSome = true ∨
        s.eeWindow = .closed ∧ (s.reg r).getLsbD 2 = false) →
      ∃ t, exec (.out a r) s = .next t ∧ t.eerie = (s.reg r).getLsbD 3 ∧
        t.eeWindow = (if (s.reg r).getLsbD 2 then .open else .closed) ∧ t.eeWrite = s.eeWrite ∧ t.eedr = s.eedr ∧
        t.eearh = s.eearh ∧ t.eearl = s.eearl ∧ SameRegsBut [] s t ∧ t.sreg = s.sreg ∧ SameMem s t ∧ SameStack s t ∧
        SameSpm s t ∧ SameControl s t ∧ t.ioEvents = s.ioEvents ∧ Advanced 1 s t ∧ t.spmWindow = s.spmWindow.age) ∧
    ∀ a r s, ioReg s.launch a = .eecr → (s.reg r).getLsbD 0 = false → (s.reg r).getLsbD 1 = true →
      s.eeWrite = none → s.eeWindow = .open → s.spmJob = none → s.eepromAddr < s.launch.device.eepromBytes →
      ∃ t, exec (.out a r) s = .next t ∧ t.eeWrite = some { addr := s.eepromAddr, value := s.eedr } ∧
        t.eeWindow = .closed ∧ t.eerie = (s.reg r).getLsbD 3 ∧ t.eedr = s.eedr ∧ t.eearh = s.eearh ∧
        t.eearl = s.eearl ∧ SameRegsBut [] s t ∧ t.sreg = s.sreg ∧ SameMem s t ∧ SameStack s t ∧ SameSpm s t ∧
        SameControl s t ∧ t.ioEvents = s.ioEvents ∧ Advanced 1 s t ∧ t.spmWindow = s.spmWindow.age

/-- Setting EERE with no write in progress reads the addressed cell into EEDR. -/
def Obligations.EereSet : Prop :=
  ∀ a r s, ioReg s.launch a = .eecr → (s.reg r).getLsbD 0 = true → (s.reg r).getLsbD 1 = false → s.eeWrite = none →
    s.eepromAddr < s.launch.device.eepromBytes →
    ∃ t, exec (.out a r) s = .next t ∧ s.mem.read .eeprom s.eepromAddr = some t.eedr ∧ t.eearh = s.eearh ∧
      t.eearl = s.eearl ∧ t.eerie = (s.reg r).getLsbD 3 ∧ t.eeWrite = none ∧
      t.eeWindow = (if (s.reg r).getLsbD 2 then .open else .closed) ∧ SameRegsBut [] s t ∧ t.sreg = s.sreg ∧
      SameMem s t ∧ SameStack s t ∧ SameSpm s t ∧ SameControl s t ∧ t.ioEvents = s.ioEvents ∧ Advanced 1 s t ∧
      t.spmWindow = s.spmWindow.age

/-- The uses of EECR outside the procedure: EERE and EEWE together, EERE while a write is in progress, EEWE with EEMWE
in one write while EEMWE was 0, and EEWE after the window's one instruction has passed. -/
def Obligations.EecrMisuse : Prop :=
  ∀ a r s, ioReg s.launch a = .eecr →
    ((s.reg r).getLsbD 0 = true ∧ (s.reg r).getLsbD 1 = true ∨
        (s.reg r).getLsbD 0 = true ∧ s.eeWrite.isSome = true ∨
        (s.reg r).getLsbD 1 = true ∧ s.eeWrite = none ∧ s.eeWindow = .closed ∧ (s.reg r).getLsbD 2 = true ∨
        (s.reg r).getLsbD 1 = true ∧ s.eeWrite = none ∧ s.eeWindow = .stale) →
    exec (.out a r) s = .fault .eepromMisuse

/-- The turn of the EEPROM agent: the write in progress ends, its byte is in the EEPROM, EEWE reads 0; nothing else
changes. The agenda that gives it the turn is log 15. -/
def Obligations.EepromWriteEnds : Prop :=
  ∀ s w rest, s.atEnd = false → s.agenda = .device .eepromDone :: rest → s.eeWrite = some w →
    ∃ t, step s = .next t ∧ t.eeWrite = none ∧ t.mem.read .eeprom w.addr = some w.value ∧
      SameMemBut .eeprom (fun a => a = w.addr) s t ∧ SameRegsBut [] s t ∧ t.sreg = s.sreg ∧ SameStack s t ∧
      SameSpm s t ∧ t.eedr = s.eedr ∧ t.eearh = s.eearh ∧ t.eearl = s.eearl ∧ t.eerie = s.eerie ∧ t.pc = s.pc ∧
      t.agenda = rest ∧ t.ioEvents = s.ioEvents ∧ t.mcucr = s.mcucr ∧ t.irqFlags = s.irqFlags ∧
      t.irqLevels = s.irqLevels ∧ t.irqEnables = s.irqEnables ∧ t.asleep = s.asleep ∧ t.watchdog = s.watchdog ∧ t.launch = s.launch ∧
      t.pcWrapped = s.pcWrapped ∧ t.holdoff = s.holdoff ∧ t.eeWindow = s.eeWindow ∧ t.spmWindow = s.spmWindow

/-- The write procedure: `SBI EECR,2` then `SBI EECR,1` starts a write of EEDR, after whose end the EEPROM holds it and
every other byte is as before. With one NOP between the two the second is a misuse. -/
def Obligations.EepromWriteProcedure : Prop :=
  ∀ a s, ioReg s.launch a = .eecr → s.noMidTurn → s.eeWrite = none → s.spmJob = none →
    s.eepromAddr < s.launch.device.eepromBytes →
    ∃ t, exec (.sbi a 2) s = .next t ∧
      (∃ u, exec (.sbi a 1) t = .next u ∧ u.eeWrite = some { addr := s.eepromAddr, value := s.eedr } ∧
        SameMem s u ∧ (deviceEvent .eepromDone u).eeWrite = none ∧
        (deviceEvent .eepromDone u).mem.read .eeprom s.eepromAddr = some s.eedr ∧
        ∀ b, b ≠ s.eepromAddr → (deviceEvent .eepromDone u).mem.read .eeprom b = s.mem.read .eeprom b) ∧
      ∃ u, exec .nop t = .next u ∧ exec (.sbi a 1) u = .fault .eepromMisuse

/-! ## Stack and exchange -/

/-- PUSH: Rr is stored at SP, then SP is one less modulo 2^SP_BITS. SP may point at SRAM or at a general register; where
nothing is implemented the push is refused. -/
def Obligations.PushStores : Prop :=
  ∀ r s, s.Inv →
    match dataPlace s.launch.device s.sp with
    | .sram b =>
      ∃ t, exec (.push r) s = .next t ∧ t.mem.read .sram b = some (s.reg r) ∧ SameMemBut .sram (fun c => c = b) s t ∧
        t.sp.toNat = (s.sp.toNat + 2 ^ s.launch.device.spBits - 1) % 2 ^ s.launch.device.spBits ∧
        t.rampz = s.rampz ∧ SameRegsBut [] s t ∧ t.sreg = s.sreg ∧ SameEeprom s t ∧ SameSpm s t ∧ SameControl s t ∧
        t.ioEvents = s.ioEvents ∧ Ended 1 s t
    | .reg k =>
      ∃ t, exec (.push r) s = .next t ∧ t.reg k = s.reg r ∧ SameRegsBut [k] s t ∧
        t.sp.toNat = (s.sp.toNat + 2 ^ s.launch.device.spBits - 1) % 2 ^ s.launch.device.spBits ∧
        t.rampz = s.rampz ∧ SameMem s t ∧ t.sreg = s.sreg ∧ SameEeprom s t ∧ SameSpm s t ∧ SameControl s t ∧
        t.ioEvents = s.ioEvents ∧ Ended 1 s t
    | .io b => exec (.push r) s = finish 1 (andThen (ioWrite s b (s.reg r)) fun t => .next (t.setSp (t.sp - 1)))
    | .nothing b => exec (.push r) s = .refused (.unimplementedDataAddress b)

/-- POP: SP is one more modulo 2^SP_BITS, then Rd is loaded from SP. A byte nothing has written faults; an address
where nothing is implemented is refused. An unwritten byte is log 4. -/
def Obligations.PopLoads : Prop :=
  ∀ d s n, s.Inv → n = BitVec.ofNat 16 ((s.sp.toNat + 1) % 2 ^ s.launch.device.spBits) →
    match dataPlace s.launch.device n with
    | .sram b =>
      (∀ v, s.mem.read .sram b = some v →
        ∃ t, exec (.pop d) s = .next t ∧ t.reg d = v ∧ t.sp = n ∧ t.rampz = s.rampz ∧ SameRegsBut [d] s t ∧
          SameMem s t ∧ t.sreg = s.sreg ∧ SameEeprom s t ∧ SameSpm s t ∧ SameControl s t ∧ t.ioEvents = s.ioEvents ∧
          Ended 1 s t) ∧
        (s.mem.read .sram b = none → exec (.pop d) s = .fault (.readUnwritten b))
    | .reg k =>
      ∃ t, exec (.pop d) s = .next t ∧ t.reg d = s.reg k ∧ t.sp = n ∧ t.rampz = s.rampz ∧ SameRegsBut [d] s t ∧
        SameMem s t ∧ t.sreg = s.sreg ∧ SameEeprom s t ∧ SameSpm s t ∧ SameControl s t ∧ t.ioEvents = s.ioEvents ∧
        Ended 1 s t
    | .io b =>
      ∃ t, exec (.pop d) s = .next t ∧ t.reg d = (ioRead { s with sp := n } b).1 ∧ t.sp = n ∧ t.rampz = s.rampz ∧
        SameRegsBut [d] s t ∧ SameMem s t ∧ t.sreg = s.sreg ∧ SameEeprom s t ∧ SameSpm s t ∧ SameControl s t ∧
        t.ioEvents = s.eventsAfterRead n ∧ Ended 1 s t
    | .nothing b => exec (.pop d) s = .refused (.unimplementedDataAddress b)

/-- PUSH Ra then POP Rb copies Ra to Rb and leaves SP as it was. -/
def Obligations.PushThenPop : Prop :=
  ∀ r d b s, s.Inv → dataPlace s.launch.device s.sp = .sram b →
    ∃ t u, exec (.push r) s = .next t ∧ exec (.pop d) t = .next u ∧ u.reg d = s.reg r ∧ u.sp = s.sp ∧
      SameRegsBut [d] s u

/-- XCH: the byte at Z and Rd change places, in SRAM or in a general register; d = 30, 31 faults; an address where
nothing is implemented is refused. Where the agenda says so a device acts between the read and the write: `u` is the
state it leaves, which is otherwise `s`. Its turn is log 35, the agenda log 15. -/
def Obligations.ExchangeSwaps : Prop :=
  (∀ d s, d = 30 ∨ d = 31 → exec (.xch d) s = .fault .undefinedOperandCombination) ∧
    ∀ d s u, d ≠ 30 → d ≠ 31 →
      (s.noMidTurn ∧ u = s ∨ ∃ e rest, s.agenda = .mid e :: rest ∧ u = deviceEvent e { s with agenda := rest }) →
      match dataPlace s.launch.device (s.dataPtr .Z) with
      | .sram b =>
        (∀ v, s.mem.read .sram b = some v →
          ∃ t, exec (.xch d) s = .next t ∧ t.reg d = v ∧ t.mem.read .sram b = some (s.reg d) ∧
            SameMemBut .sram (fun c => c = b) u t ∧ SameRegsBut [d] s t ∧ t.sreg = s.sreg ∧ SameAside u t ∧
            t.ioEvents = s.ioEvents ∧ Ended 1 u t) ∧
          (s.mem.read .sram b = none → exec (.xch d) s = .fault (.readUnwritten b))
      | .reg k =>
        ∃ t, exec (.xch d) s = .next t ∧ t.reg d = s.reg k ∧ t.reg k = s.reg d ∧ SameRegsBut [d, k] s t ∧
          SameMem u t ∧ t.sreg = s.sreg ∧ SameAside u t ∧ t.ioEvents = s.ioEvents ∧ Ended 1 u t
      | .io b =>
        (s.noMidTurn → exec (.xch d) s = finish 1 (andThen (ioWrite (ioRead s b).2 b (s.reg d)) fun t =>
            .next (t.setReg d (ioRead s b).1))) ∧
          ∀ e rest, s.agenda = .mid e :: rest →
            exec (.xch d) s = finish 1
              (andThen (ioWrite (deviceEvent e { (ioRead s b).2 with agenda := rest }) b (s.reg d)) fun t =>
                .next (t.setReg d (ioRead s b).1))
      | .nothing b => exec (.xch d) s = .refused (.unimplementedDataAddress b)

/-! ## Control -/

/-- NOP only advances the pc; so does BREAK with the debug system disabled; WDR also clears the watchdog counter. BREAK
ends the run or is refused under the other two launch parameters. The launch parameters are log 8, the counter log 24.
-/
def Obligations.NopBreakWdr : Prop :=
  (∀ s : State, ∃ t, exec .nop s = .next t ∧ OnlyEnded 1 s t) ∧
    (∀ s : State, match s.launch.breakMode with
      | .nop => ∃ t, exec .brk s = .next t ∧ OnlyEnded 1 s t
      | .halt => exec .brk s = .fault .debugHalt
      | .refuse => exec .brk s = .refused .breakNotModelled) ∧
    ∀ s : State, ∃ t, exec .wdr s = .next t ∧ t.watchdog = 0 ∧ OnlyEnded 1 { s with watchdog := 0 } t

/-- SLEEP: where sleep is enabled the pc advances and the core sleeps, else only the pc advances. While asleep the core
executes nothing: with no other agent's turn due, a step changes nothing unless an interrupt can be taken; with I = 0
none can. MCUCR is log 7, the agenda log 15, waking log 32. -/
def Obligations.SleepEnters : Prop :=
  (∀ s : State, match s.launch.sleepMode with
    | .mcucr => ∃ t, exec .sleep s = .next t ∧ t.asleep = (s.asleep || s.mcucr.getLsbD 7) ∧
        OnlyEnded 1 { s with asleep := s.asleep || s.mcucr.getLsbD 7 } t
    | .nop => ∃ t, exec .sleep s = .next t ∧ OnlyEnded 1 s t
    | .wait => ∃ t, exec .sleep s = .next t ∧ t.asleep = true ∧ OnlyEnded 1 { s with asleep := true } t
    | .refuse => exec .sleep s = .refused .sleepNotModelled) ∧
    (∀ s : State, s.atEnd = false → s.agenda = [] → s.asleep = true → s.takeable = none → step s = .next s) ∧
    ∀ s : State, s.flag flagI = false → s.takeable = none

/-! ## Interrupts -/

/-- The handler address of vector n is VECTOR_STRIDE (n - 1), with a stride of 2 on the ATmega32, for its 21 vectors;
each source has the number of the table. -/
def Obligations.VectorAddresses : Prop :=
  (∀ (d : Device) n, vectorAddr d n = d.vectorStride * (n - 1)) ∧
    Device.atmega32.vectorStride = 2 ∧ Device.atmega32.vectorCount = 21 ∧
    (∀ n, 1 ≤ n → n ≤ 21 → vectorAddr Device.atmega32 n = 2 * (n - 1) ∧
      vectorAddr Device.atmega32 (n + 1) = vectorAddr Device.atmega32 n + 2) ∧
    Irq.byPriority.map Irq.number = List.range' 2 20 ∧ (∀ v : Irq, v ∈ Irq.byPriority) ∧
    vectorAddr Device.atmega32 Irq.int0.number = 0x002 ∧ vectorAddr Device.atmega32 Irq.timer1Ovf.number = 0x012 ∧
    vectorAddr Device.atmega32 Irq.eeRdy.number = 0x022 ∧ vectorAddr Device.atmega32 Irq.spmRdy.number = 0x028

/-- An interrupt can be taken exactly when the model has the interrupt agent, I is 1, no hold-off is in force, the
device has the vector, the source is pending and enabled, and no pending enabled source has a lower number. -/
def Obligations.TakenWhen : Prop :=
  ∀ (s : State) (v : Irq), s.takeable = some v ↔
    s.launch.interruptModel = .agent ∧ s.flag flagI = true ∧ s.holdoff = false ∧
      v.number ≤ s.launch.device.vectorCount ∧ s.pending v = true ∧ s.enabled v = true ∧ ∀ w, s.pending w = true → s.enabled w = true → v.number ≤ w.number

/-- Entry of an interrupt. The step is the entry where an interrupt can be taken and the agenda is empty, or gives the
interrupt its turn; a turn with none to take passes. I is cleared; the pc is pushed low byte first, so its high byte
lies at the lower address; SP is two less; the pc is at the vector; the core is awake; a flag that entry clears is
cleared, a level that a pin holds is not; nothing else changes. SP may point at SRAM or at general registers; where
nothing is implemented at SP or at the address below it, the entry is refused; at any address the two bytes go where a
store puts them. A window that was open is over before the first push, so a push that sets EEWE then is a misuse. Who
has the turn is log 15, the windows log 16, a pc that had wrapped log 44, levels log 41. -/
def Obligations.InterruptEntry : Prop :=
  (∀ s v, s.atEnd = false → s.agenda = [] → s.takeable = some v → step s = enterInterrupt v s) ∧
    (∀ s rest, s.atEnd = false → s.agenda = .interrupt :: rest →
      (∀ v, s.takeable = some v → step s = enterInterrupt v { s with agenda := rest }) ∧
        (s.takeable = none → step s = .next { s with agenda := rest })) ∧
    (∀ s v a b, s.Inv → 0 < s.launch.device.spBits → dataPlace s.launch.device s.sp = .sram a →
      dataPlace s.launch.device s.spBelow = .sram b →
      ∃ t, enterInterrupt v s = .next t ∧ t.mem.read .sram a = some (s.pc.extractLsb' 0 8) ∧
        t.mem.read .sram b = some (s.pc.extractLsb' 8 8) ∧ SameMemBut .sram (fun c => c = a ∨ c = b) s t ∧
        SameRegsBut [] s t ∧ EntryLeaves v s t) ∧
    (∀ s v j k, s.Inv → 0 < s.launch.device.spBits → dataPlace s.launch.device s.sp = .reg j →
      dataPlace s.launch.device s.spBelow = .reg k →
      ∃ t, enterInterrupt v s = .next t ∧ t.reg j = s.pc.extractLsb' 0 8 ∧ t.reg k = s.pc.extractLsb' 8 8 ∧
        SameMem s t ∧ SameRegsBut [j, k] s t ∧ EntryLeaves v s t) ∧
    (∀ s v a, dataPlace s.launch.device s.sp = .nothing a →
      enterInterrupt v s = .refused (.unimplementedDataAddress a)) ∧
    (∀ s v a, s.Inv → (∀ b, dataPlace s.launch.device s.sp ≠ .nothing b) →
      (∀ b, dataPlace s.launch.device s.sp ≠ .io b) → dataPlace s.launch.device s.spBelow = .nothing a →
      enterInterrupt v s = .refused (.unimplementedDataAddress a)) ∧
    (∀ s v b, dataPlace s.launch.device s.sp = .io b → ioReg s.launch b = .eecr → s.pc.getLsbD 1 = true →
      s.eeWrite = none → s.eeWindow ≠ .closed → enterInterrupt v s = .fault .eepromMisuse) ∧
    ∀ s v, enterInterrupt v s =
      andThen (memWrite s.enterHandler s.sp (s.pc.extractLsb' 0 8)) fun t =>
        andThen (memWrite t.spLowered t.spLowered.sp (s.pc.extractLsb' 8 8)) fun u => .next (u.spLowered.atVector v)

/-- Return from an interrupt undoes its entry: the pc and SP are those of the interrupted program, I is set, the
hold-off is in force, and no general register has changed. No instruction of the model performs it. -/
def Obligations.ReturnUndoesEntry : Prop :=
  ∀ s v a b t, s.Inv → 0 < s.launch.device.spBits → dataPlace s.launch.device s.sp = .sram a →
    dataPlace s.launch.device s.spBelow = .sram b → enterInterrupt v s = .next t →
    ∃ u, returnFromInterrupt t = .next u ∧ u.pc = s.pc ∧ u.sp = s.sp ∧ u.flag flagI = true ∧ u.holdoff = true ∧
      (∀ c, c ≠ flagI → u.flag c = s.flag c) ∧ SameRegsBut [] s u

/-- The hold-off: after SEI (or BSET 7) no interrupt can be taken before one more instruction; that instruction, unless
it sets I itself, ends the hold-off. After CLI none can be taken. A store to SREG sets none (log 40). -/
def Obligations.HoldOff : Prop :=
  (∀ i s, setsFlag i = some flagI → s.launch.interruptModel = .agent →
      ∃ t, exec i s = .next t ∧ t.flag flagI = true ∧ t.holdoff = true ∧ t.takeable = none) ∧
    (∀ i s t, setsFlag i ≠ some flagI → exec i s = .next t → t.holdoff = false) ∧
    ∀ i s, clearsFlag i = some flagI → ∃ t, exec i s = .next t ∧ t.takeable = none

/-- No instruction clears or sets a request flag, a level or an enable bit of the interrupt agent: requests are
remembered until they are taken. The request of EE_RDY is a level: it is there as long as EEWE = 0, whatever the flags,
and EERIE enables it. INT0 and INT1 are requested by their flag or by the level their pin holds (the model's choice, log
41). The flags and enables are log 21. -/
def Obligations.RequestsRemembered : Prop :=
  (∀ i s t, s.noMidTurn → exec i s = .next t →
      t.irqFlags = s.irqFlags ∧ t.irqLevels = s.irqLevels ∧ t.irqEnables = s.irqEnables) ∧
    (∀ s : State, s.launch.eepromModel = .device →
      (s.pending .eeRdy = true ↔ s.eeWrite = none) ∧ (s.enabled .eeRdy = true ↔ s.eerie = true)) ∧
    ∀ (s : State) v, v = .int0 ∨ v = .int1 →
      (s.pending v = true ↔ s.irqFlags.getLsbD v.number = true ∨ s.irqLevels.getLsbD v.number = true)

/-! ## The machine -/

/-- A step runs the decoded instruction: where the core is next and the bytes at the pc decode to an instruction that
program memory holds whole and readable, the step is that instruction's meaning. The agenda is log 15. -/
def Obligations.StepRunsDecoded : Prop :=
  ∀ s i rest, s.pcWrapped = false → decode s.launch.device.features s.fetchBytes = .instr i rest →
    s.pc.toNat + i.words ≤ s.launch.device.flashWords →
    (∀ n, n < i.words → s.sectionBusy (s.pc.toNat + n) = false) →
    (s.coreIsNext → step s = exec i s) ∧
      ∀ later, s.atEnd = false → s.asleep = false → s.agenda = .core :: later →
        step s = exec i { s with agenda := later }

/-- A word that is none of the device's forms is refused by its value; so is a fetch outside program memory, of the
second word of an instruction too, or after the pc wrapped. A fetch from a section that an SPM operation made unreadable
faults. The run ends at END_PC before the word there is fetched, whatever that word is and whoever would be next. The
busy section is log 13, the wrapped pc log 19, END_PC, also while asleep, log 20. -/
def Obligations.StepStops : Prop :=
  (∀ s : State, s.coreIsNext →
    (∀ w, s.pcWrapped = false → s.pc.toNat < s.launch.device.flashWords → s.sectionBusy s.pc.toNat = false →
        decode s.launch.device.features s.fetchBytes = .notInScope w →
        step s = .refused (.notInScope w) ∧ w = s.mem.progWord s.pc.toNat) ∧
      (s.pcWrapped = false → s.sectionBusy s.pc.toNat = false → s.pc.toNat + 1 = s.launch.device.flashWords →
        decode s.launch.device.features (bytesOf [s.mem.progWord s.pc.toNat]) = .truncated →
        step s = .refused (.fetchOutside s.launch.device.flashWords)) ∧
      (s.pcWrapped = false → s.pc.toNat < s.launch.device.flashWords → s.sectionBusy s.pc.toNat = true →
        step s = .fault (.busySectionFetch s.pc.toNat)) ∧
      (s.pcWrapped = false → s.launch.device.flashWords ≤ s.pc.toNat →
        step s = .refused (.fetchOutside s.pc.toNat)) ∧
      (s.pcWrapped = true → step s = .refused (.fetchOutside (2 ^ s.launch.device.pcBits)))) ∧
    ∀ s : State, s.pcWrapped = false → s.launch.endPc = some s.pc → step s = .fault .endOfRun

/-- Every instruction that completes leaves the pc one further, or two for the two-word LDS and STS, modulo 2^PC_BITS.
-/
def Obligations.PcAdvances : Prop :=
  ∀ i s t, exec i s = .next t →
    t.pc.toNat = (s.pc.toNat + (match i with | .lds _ _ => 2 | .sts _ _ => 2 | _ => 1)) %
      2 ^ s.launch.device.pcBits % 65536

/-- The instructions that can write SREG: the set and clear forms, BST, the shifts, and OUT, SBI, CBI, the stores, PUSH
and XCH where they reach SREG's own address. Every other instruction leaves SREG unchanged. -/
def Obligations.SregWriters : Prop :=
  ∀ i s t, s.noMidTurn → exec i s = .next t → t.sreg ≠ s.sreg →
    (setsFlag i ≠ none ∨ clearsFlag i ≠ none ∨ (∃ r b, i = .bst r b) ∨
        ∃ d, i = .lsl d ∨ i = .lsr d ∨ i = .rol d ∨ i = .ror d ∨ i = .asr d) ∨
      (∃ a, ((∃ r, i = .out a r) ∨ (∃ b, i = .sbi a b) ∨ ∃ b, i = .cbi a b) ∧ ioReg s.launch a = .sreg) ∨
      ∃ a b, ((∃ r, storeForm s i = some (r, a)) ∨ (∃ p pre r, updStoreForm i = some (p, pre, r) ∧ a = s.updAddr p pre) ∨
          (∃ r, i = .push r ∧ a = s.sp) ∨ ∃ d, i = .xch d ∧ a = s.dataPtr .Z) ∧
        dataPlace s.launch.device a = .io b ∧ ioReg s.launch b = .sreg

/-- Only SPM changes program memory: no store to the data space, no I/O write and no stack access reaches it. -/
def Obligations.OnlySpmWritesProgram : Prop :=
  ∀ i s t, s.noMidTurn → i ≠ .spm → i ≠ .spmZInc → exec i s = .next t →
    ∀ a, t.mem.read .flash a = s.mem.read .flash a

/-- A reset in mid-run: the pc is at vector 1, SREG and RAMPZ are 0, interrupts and sleep are over, nothing is pushed;
program memory is kept but for the page that was being erased or written, the EEPROM but for the byte that was being
written, and SRAM unless the cause is power-on. That no hold-off is in force is the model's choice (log 21). What the
reset leaves open is log 23, the watchdog log 24. -/
def Obligations.ResetInMidRun : Prop :=
  ∀ s c rest, s.atEnd = false → s.agenda = .reset c :: rest → (c = .watchdog → s.launch.watchdogEnabled = true ∧
      0 < s.watchdog) →
    ∃ t, step s = .next t ∧ t.pc.toNat = vectorAddr s.launch.device 1 ∧ t.sreg = 0 ∧ t.rampz = 0 ∧ t.eerie = false ∧
      t.eeWindow = .closed ∧ t.irqFlags = 0 ∧ t.asleep = false ∧ t.holdoff = false ∧ t.launch = s.launch ∧
      (s.spmJob = none → ∀ a, t.mem.read .flash a = s.mem.read .flash a) ∧
      (∀ base, s.spmJob = some (.erase base) ∨ s.spmJob = some (.write base) →
        ∀ a, ¬(base ≤ a ∧ a < base + pageBytes s.launch.device) → t.mem.read .flash a = s.mem.read .flash a) ∧
      (∀ a, (∀ w, s.eeWrite = some w → a ≠ w.addr) → t.mem.read .eeprom a = s.mem.read .eeprom a) ∧
      (c ≠ .powerOn → ∀ a, t.mem.read .sram a = s.mem.read .sram a) ∧
      (c = .powerOn → ∀ a, t.mem.read .sram a = none)
end

