-- ==== Sys2Proof/Laws/Memory.lean ====
section
/-! SUPPORT. The laws of memory: a byte reads as it was last written, a write leaves every other byte alone, and every
memory operation keeps the canonical form. -/

namespace Sys2Proof.Machine

/-! ## Lists of cells -/

theorem lookupCell_insertCell (cs : List Host.Cell) (a b : Nat) (v : Byte) :
    lookupCell (insertCell cs a v) b = if a = b then some v else lookupCell cs b := by
  induction cs with
  | nil => simp [insertCell, lookupCell]
  | cons c cs ih =>
    unfold insertCell
    split
    · simp [lookupCell]
    · split
      · next h =>
        subst h
        by_cases h2 : c.1 = b <;> simp [lookupCell, h2]
      · next h1 h2 =>
        by_cases h3 : c.1 = b
        · have : a ≠ b := fun e => h2 (e.trans h3.symm)
          simp [lookupCell, h3, this]
        · simp [lookupCell, h3, ih]

theorem lookupCell_eraseCell (cs : List Host.Cell) (a b : Nat) :
    lookupCell (eraseCell cs a) b = if a = b then none else lookupCell cs b := by
  induction cs with
  | nil => simp [eraseCell, lookupCell]
  | cons c cs ih =>
    unfold eraseCell
    split
    · next h =>
      rw [ih]
      by_cases h2 : a = b
      · simp [h2]
      · have : c.1 ≠ b := fun e => h2 (h ▸ e)
        simp [lookupCell, h2, this]
    · next h =>
      by_cases h2 : c.1 = b
      · have : a ≠ b := fun e => h (h2.trans e.symm)
        simp [lookupCell, h2, this]
      · simp [lookupCell, h2, ih]

theorem all_insertCell (q : Host.Cell → Bool) (cs : List Host.Cell) (a : Nat) (v : Byte)
    (h : cs.all q = true) (hv : q (a, v) = true) : (insertCell cs a v).all q = true := by
  induction cs with
  | nil => simp [insertCell, hv]
  | cons c cs ih =>
    simp only [List.all_cons, Bool.and_eq_true] at h
    unfold insertCell
    split
    · simp only [List.all_cons, Bool.and_eq_true]
      exact ⟨hv, h.1, h.2⟩
    · split
      · simp only [List.all_cons, Bool.and_eq_true]
        exact ⟨hv, h.2⟩
      · simp only [List.all_cons, Bool.and_eq_true]
        exact ⟨h.1, ih h.2⟩

theorem all_eraseCell (q : Host.Cell → Bool) (cs : List Host.Cell) (a : Nat) (h : cs.all q = true) :
    (eraseCell cs a).all q = true := by
  induction cs with
  | nil => simp [eraseCell]
  | cons c cs ih =>
    simp only [List.all_cons, Bool.and_eq_true] at h
    unfold eraseCell
    split
    · exact ih h.2
    · simp only [List.all_cons, Bool.and_eq_true]
      exact ⟨h.1, ih h.2⟩

theorem cellsRising_insertCell (cs : List Host.Cell) (a : Nat) (v : Byte) (h : cellsRising cs = true) :
    cellsRising (insertCell cs a v) = true := by
  induction cs with
  | nil => simp [insertCell, cellsRising]
  | cons c cs ih =>
    simp only [cellsRising, Bool.and_eq_true] at h
    unfold insertCell
    split
    · next hlt =>
      simp only [cellsRising, List.all_cons, Bool.and_eq_true, decide_eq_true_eq]
      refine ⟨⟨hlt, ?_⟩, h.1, h.2⟩
      rw [List.all_eq_true] at h ⊢
      intro d hd
      have := h.1 d hd
      simp only [decide_eq_true_eq] at this ⊢
      omega
    · split
      · next heq =>
        subst heq
        simp only [cellsRising, Bool.and_eq_true]
        exact h
      · next h1 h2 =>
        simp only [cellsRising, Bool.and_eq_true]
        refine ⟨all_insertCell _ cs a v h.1 ?_, ih h.2⟩
        simp only [decide_eq_true_eq]
        omega

theorem cellsRising_eraseCell (cs : List Host.Cell) (a : Nat) (h : cellsRising cs = true) :
    cellsRising (eraseCell cs a) = true := by
  induction cs with
  | nil => simp [eraseCell, cellsRising]
  | cons c cs ih =>
    simp only [cellsRising, Bool.and_eq_true] at h
    unfold eraseCell
    split
    · exact ih h.2
    · simp only [cellsRising, Bool.and_eq_true]
      exact ⟨all_eraseCell _ cs a h.1, ih h.2⟩

/-- Writing one byte keeps the canonical form of a list of cells. -/
theorem cellsWf_write (fill : Option Byte) (cs : List Host.Cell) (a : Nat) (v : Byte) (h : cellsWf fill cs = true) :
    cellsWf fill (if fill = some v then eraseCell cs a else insertCell cs a v) = true := by
  simp only [cellsWf, Bool.and_eq_true] at h ⊢
  split
  · exact ⟨cellsRising_eraseCell cs a h.1, all_eraseCell _ cs a h.2⟩
  · next hv =>
    refine ⟨cellsRising_insertCell cs a v h.1, all_insertCell _ cs a v h.2 ?_⟩
    simp only [decide_eq_true_eq]
    exact fun e => hv e.symm

/-! ## Memories -/

@[simp] theorem Memory.cells_setCells (m : Memory) (sp sp' : Space) (cs : List Host.Cell) :
    (m.setCells sp cs).cells sp' = if sp' = sp then cs else m.cells sp' := by
  cases sp <;> cases sp' <;> rfl

/-- What reading a byte after a write gives: the value written at that address of that memory, and at every other the
byte as before. -/
theorem Memory.read_write (m : Memory) (sp sp' : Space) (a b : Nat) (v : Byte) :
    (m.write sp a v).read sp' b = if sp' = sp ∧ a = b then some v else m.read sp' b := by
  unfold Memory.read Memory.write
  rw [Memory.cells_setCells]
  by_cases h : sp' = sp
  · subst h
    by_cases hv : sp'.fill = some v
    · by_cases hab : a = b <;> simp [hv, lookupCell_eraseCell, hab]
    · by_cases hab : a = b <;> simp [hv, lookupCell_insertCell, hab]
  · simp [h]

/-- A byte reads as it was last written. -/
theorem Memory.read_write_same (m : Memory) (sp : Space) (a : Nat) (v : Byte) :
    (m.write sp a v).read sp a = some v := by
  simp [Memory.read_write]

/-- A write leaves every other byte alone. -/
theorem Memory.read_write_other (m : Memory) {sp sp' : Space} {a b : Nat} (v : Byte) (h : ¬(sp' = sp ∧ a = b)) :
    (m.write sp a v).read sp' b = m.read sp' b := by
  simp [Memory.read_write, h]

/-- What reading a byte after a run of writes gives. -/
theorem Memory.read_writeRun (m : Memory) (sp sp' : Space) (a b : Nat) (f : Nat → Byte) (n : Nat) :
    (m.writeRun sp a f n).read sp' b =
      if sp' = sp ∧ a ≤ b ∧ b < a + n then some (f (b - a)) else m.read sp' b := by
  induction n with
  | zero =>
    have : ¬(sp' = sp ∧ a ≤ b ∧ b < a + 0) := by omega
    simp only [Memory.writeRun, this, if_false]
  | succ n ih =>
    simp only [Memory.writeRun, Memory.read_write, ih]
    by_cases hs : sp' = sp
    · by_cases hb : a + n = b
      · have h1 : a ≤ b ∧ b < a + (n + 1) := by omega
        have h2 : b - a = n := by omega
        simp only [hs, hb, and_self, if_true, h1, h2]
      · by_cases h3 : a ≤ b ∧ b < a + n
        · have h4 : a ≤ b ∧ b < a + (n + 1) := by omega
          simp only [hs, hb, h3, h4, and_self, and_false, if_true, if_false]
        · have h4 : ¬(a ≤ b ∧ b < a + (n + 1)) := by omega
          simp only [hs, hb, h3, h4, and_false, if_false]
    · simp only [hs, false_and, if_false]

theorem Memory.wf_iff (m : Memory) : m.wf = true ↔ ∀ sp : Space, cellsWf sp.fill (m.cells sp) = true := by
  simp only [Memory.wf, Bool.and_eq_true]
  constructor
  · rintro ⟨⟨⟨h1, h2⟩, h3⟩, h4⟩ sp
    cases sp
    · exact h1
    · exact h2
    · exact h3
    · exact h4
  · intro h
    exact ⟨⟨⟨h .sram, h .flash⟩, h .eeprom⟩, h .pageBuffer⟩

/-- A write keeps the canonical form. -/
theorem Memory.wf_write (m : Memory) (sp : Space) (a : Nat) (v : Byte) (h : m.wf = true) :
    (m.write sp a v).wf = true := by
  rw [Memory.wf_iff] at h ⊢
  intro sp'
  unfold Memory.write
  rw [Memory.cells_setCells]
  split
  · next hs =>
    subst hs
    exact cellsWf_write _ _ a v (h sp')
  · exact h sp'

/-- A run of writes keeps the canonical form. -/
theorem Memory.wf_writeRun (m : Memory) (sp : Space) (a : Nat) (f : Nat → Byte) (n : Nat) (h : m.wf = true) :
    (m.writeRun sp a f n).wf = true := by
  induction n with
  | zero => exact h
  | succ n ih => exact Memory.wf_write _ sp (a + n) (f n) ih

/-- Emptying a memory keeps the canonical form. -/
theorem Memory.wf_clear (m : Memory) (sp : Space) (h : m.wf = true) : (m.setCells sp []).wf = true := by
  rw [Memory.wf_iff] at h ⊢
  intro sp'
  rw [Memory.cells_setCells]
  split
  · rfl
  · exact h sp'

/-- The memory after reset has the canonical form. -/
theorem Memory.wf_reset : State.reset.mem.wf = true := rfl

end Sys2Proof.Machine
end

