-- ==== Sys2Proof/Laws/State.lean ====
section
/-! SUPPORT. One lemma per field per update of the state, and the laws of the register file, so that no proof unfolds a
record update. -/

namespace Sys2Proof.Machine

open Config

/-! ## setReg -/

@[simp] theorem State.setReg_regs (s : State) (i : Reg) (v : Byte) :
    (s.setReg i v).regs =
      s.regs.set i.toNat v i.isLt := rfl
@[simp] theorem State.setReg_pc (s : State) (i : Reg) (v : Byte) : (s.setReg i v).pc = s.pc := rfl
@[simp] theorem State.setReg_pcWrapped (s : State) (i : Reg) (v : Byte) :
    (s.setReg i v).pcWrapped =
      s.pcWrapped := rfl
@[simp] theorem State.setReg_sreg (s : State) (i : Reg) (v : Byte) : (s.setReg i v).sreg = s.sreg := rfl
@[simp] theorem State.setReg_sp (s : State) (i : Reg) (v : Byte) : (s.setReg i v).sp = s.sp := rfl
@[simp] theorem State.setReg_rampz (s : State) (i : Reg) (v : Byte) : (s.setReg i v).rampz = s.rampz := rfl
@[simp] theorem State.setReg_mem (s : State) (i : Reg) (v : Byte) : (s.setReg i v).mem = s.mem := rfl
@[simp] theorem State.setReg_eearh (s : State) (i : Reg) (v : Byte) : (s.setReg i v).eearh = s.eearh := rfl
@[simp] theorem State.setReg_eearl (s : State) (i : Reg) (v : Byte) : (s.setReg i v).eearl = s.eearl := rfl
@[simp] theorem State.setReg_eedr (s : State) (i : Reg) (v : Byte) : (s.setReg i v).eedr = s.eedr := rfl
@[simp] theorem State.setReg_eerie (s : State) (i : Reg) (v : Byte) : (s.setReg i v).eerie = s.eerie := rfl
@[simp] theorem State.setReg_eeWindow (s : State) (i : Reg) (v : Byte) : (s.setReg i v).eeWindow = s.eeWindow := rfl
@[simp] theorem State.setReg_eeWrite (s : State) (i : Reg) (v : Byte) : (s.setReg i v).eeWrite = s.eeWrite := rfl
@[simp] theorem State.setReg_mcucr (s : State) (i : Reg) (v : Byte) : (s.setReg i v).mcucr = s.mcucr := rfl
@[simp] theorem State.setReg_spmcr (s : State) (i : Reg) (v : Byte) : (s.setReg i v).spmcr = s.spmcr := rfl
@[simp] theorem State.setReg_spmWindow (s : State) (i : Reg) (v : Byte) :
    (s.setReg i v).spmWindow =
      s.spmWindow := rfl
@[simp] theorem State.setReg_spmJob (s : State) (i : Reg) (v : Byte) : (s.setReg i v).spmJob = s.spmJob := rfl
@[simp] theorem State.setReg_lockBits (s : State) (i : Reg) (v : Byte) : (s.setReg i v).lockBits = s.lockBits := rfl
@[simp] theorem State.setReg_irqFlags (s : State) (i : Reg) (v : Byte) : (s.setReg i v).irqFlags = s.irqFlags := rfl
@[simp] theorem State.setReg_irqLevels (s : State) (i : Reg) (v : Byte) :
    (s.setReg i v).irqLevels =
      s.irqLevels := rfl
@[simp] theorem State.setReg_irqEnables (s : State) (i : Reg) (v : Byte) :
    (s.setReg i v).irqEnables =
      s.irqEnables := rfl
@[simp] theorem State.setReg_holdoff (s : State) (i : Reg) (v : Byte) : (s.setReg i v).holdoff = s.holdoff := rfl
@[simp] theorem State.setReg_asleep (s : State) (i : Reg) (v : Byte) : (s.setReg i v).asleep = s.asleep := rfl
@[simp] theorem State.setReg_watchdog (s : State) (i : Reg) (v : Byte) : (s.setReg i v).watchdog = s.watchdog := rfl
@[simp] theorem State.setReg_ioEvents (s : State) (i : Reg) (v : Byte) : (s.setReg i v).ioEvents = s.ioEvents := rfl
@[simp] theorem State.setReg_agenda (s : State) (i : Reg) (v : Byte) : (s.setReg i v).agenda = s.agenda := rfl
@[simp] theorem State.setReg_draws (s : State) (i : Reg) (v : Byte) : (s.setReg i v).draws = s.draws := rfl
@[simp] theorem State.setReg_launch (s : State) (i : Reg) (v : Byte) : (s.setReg i v).launch = s.launch := rfl
@[simp] theorem State.setReg_flag (s : State) (i : Reg) (v : Byte) (c : BitNum) :
    (s.setReg i v).flag c = s.flag c := rfl

/-! ## setPtr -/

@[simp] theorem State.setPtr_pc (s : State) (p : Ptr) (v : Word) : (s.setPtr p v).pc = s.pc := rfl
@[simp] theorem State.setPtr_pcWrapped (s : State) (p : Ptr) (v : Word) :
    (s.setPtr p v).pcWrapped =
      s.pcWrapped := rfl
@[simp] theorem State.setPtr_sreg (s : State) (p : Ptr) (v : Word) : (s.setPtr p v).sreg = s.sreg := rfl
@[simp] theorem State.setPtr_sp (s : State) (p : Ptr) (v : Word) : (s.setPtr p v).sp = s.sp := rfl
@[simp] theorem State.setPtr_rampz (s : State) (p : Ptr) (v : Word) : (s.setPtr p v).rampz = s.rampz := rfl
@[simp] theorem State.setPtr_mem (s : State) (p : Ptr) (v : Word) : (s.setPtr p v).mem = s.mem := rfl
@[simp] theorem State.setPtr_eearh (s : State) (p : Ptr) (v : Word) : (s.setPtr p v).eearh = s.eearh := rfl
@[simp] theorem State.setPtr_eearl (s : State) (p : Ptr) (v : Word) : (s.setPtr p v).eearl = s.eearl := rfl
@[simp] theorem State.setPtr_eedr (s : State) (p : Ptr) (v : Word) : (s.setPtr p v).eedr = s.eedr := rfl
@[simp] theorem State.setPtr_eerie (s : State) (p : Ptr) (v : Word) : (s.setPtr p v).eerie = s.eerie := rfl
@[simp] theorem State.setPtr_eeWindow (s : State) (p : Ptr) (v : Word) : (s.setPtr p v).eeWindow = s.eeWindow := rfl
@[simp] theorem State.setPtr_eeWrite (s : State) (p : Ptr) (v : Word) : (s.setPtr p v).eeWrite = s.eeWrite := rfl
@[simp] theorem State.setPtr_mcucr (s : State) (p : Ptr) (v : Word) : (s.setPtr p v).mcucr = s.mcucr := rfl
@[simp] theorem State.setPtr_spmcr (s : State) (p : Ptr) (v : Word) : (s.setPtr p v).spmcr = s.spmcr := rfl
@[simp] theorem State.setPtr_spmWindow (s : State) (p : Ptr) (v : Word) :
    (s.setPtr p v).spmWindow =
      s.spmWindow := rfl
@[simp] theorem State.setPtr_spmJob (s : State) (p : Ptr) (v : Word) : (s.setPtr p v).spmJob = s.spmJob := rfl
@[simp] theorem State.setPtr_lockBits (s : State) (p : Ptr) (v : Word) : (s.setPtr p v).lockBits = s.lockBits := rfl
@[simp] theorem State.setPtr_irqFlags (s : State) (p : Ptr) (v : Word) : (s.setPtr p v).irqFlags = s.irqFlags := rfl
@[simp] theorem State.setPtr_irqLevels (s : State) (p : Ptr) (v : Word) :
    (s.setPtr p v).irqLevels =
      s.irqLevels := rfl
@[simp] theorem State.setPtr_irqEnables (s : State) (p : Ptr) (v : Word) :
    (s.setPtr p v).irqEnables =
      s.irqEnables := rfl
@[simp] theorem State.setPtr_holdoff (s : State) (p : Ptr) (v : Word) : (s.setPtr p v).holdoff = s.holdoff := rfl
@[simp] theorem State.setPtr_asleep (s : State) (p : Ptr) (v : Word) : (s.setPtr p v).asleep = s.asleep := rfl
@[simp] theorem State.setPtr_watchdog (s : State) (p : Ptr) (v : Word) : (s.setPtr p v).watchdog = s.watchdog := rfl
@[simp] theorem State.setPtr_ioEvents (s : State) (p : Ptr) (v : Word) : (s.setPtr p v).ioEvents = s.ioEvents := rfl
@[simp] theorem State.setPtr_agenda (s : State) (p : Ptr) (v : Word) : (s.setPtr p v).agenda = s.agenda := rfl
@[simp] theorem State.setPtr_draws (s : State) (p : Ptr) (v : Word) : (s.setPtr p v).draws = s.draws := rfl
@[simp] theorem State.setPtr_launch (s : State) (p : Ptr) (v : Word) : (s.setPtr p v).launch = s.launch := rfl
@[simp] theorem State.setPtr_flag (s : State) (p : Ptr) (v : Word) (c : BitNum) :
    (s.setPtr p v).flag c = s.flag c := rfl

/-! ## setDataPtr -/

@[simp] theorem State.setDataPtr_pc (s : State) (p : Ptr) (v : Word) : (s.setDataPtr p v).pc = s.pc := by
  unfold State.setDataPtr; split <;> rfl
@[simp] theorem State.setDataPtr_pcWrapped (s : State) (p : Ptr) (v : Word) :
    (s.setDataPtr p v).pcWrapped =
      s.pcWrapped := by
  unfold State.setDataPtr; split <;> rfl
@[simp] theorem State.setDataPtr_sreg (s : State) (p : Ptr) (v : Word) : (s.setDataPtr p v).sreg = s.sreg := by
  unfold State.setDataPtr; split <;> rfl
@[simp] theorem State.setDataPtr_sp (s : State) (p : Ptr) (v : Word) : (s.setDataPtr p v).sp = s.sp := by
  unfold State.setDataPtr; split <;> rfl
@[simp] theorem State.setDataPtr_rampz (s : State) (p : Ptr) (v : Word) : (s.setDataPtr p v).rampz = s.rampz := by
  unfold State.setDataPtr; split <;> rfl
@[simp] theorem State.setDataPtr_mem (s : State) (p : Ptr) (v : Word) : (s.setDataPtr p v).mem = s.mem := by
  unfold State.setDataPtr; split <;> rfl
@[simp] theorem State.setDataPtr_eearh (s : State) (p : Ptr) (v : Word) : (s.setDataPtr p v).eearh = s.eearh := by
  unfold State.setDataPtr; split <;> rfl
@[simp] theorem State.setDataPtr_eearl (s : State) (p : Ptr) (v : Word) : (s.setDataPtr p v).eearl = s.eearl := by
  unfold State.setDataPtr; split <;> rfl
@[simp] theorem State.setDataPtr_eedr (s : State) (p : Ptr) (v : Word) : (s.setDataPtr p v).eedr = s.eedr := by
  unfold State.setDataPtr; split <;> rfl
@[simp] theorem State.setDataPtr_eerie (s : State) (p : Ptr) (v : Word) : (s.setDataPtr p v).eerie = s.eerie := by
  unfold State.setDataPtr; split <;> rfl
@[simp] theorem State.setDataPtr_eeWindow (s : State) (p : Ptr) (v : Word) :
    (s.setDataPtr p v).eeWindow = s.eeWindow := by
  unfold State.setDataPtr; split <;> rfl
@[simp] theorem State.setDataPtr_eeWrite (s : State) (p : Ptr) (v : Word) : (s.setDataPtr p v).eeWrite = s.eeWrite := by
  unfold State.setDataPtr; split <;> rfl
@[simp] theorem State.setDataPtr_mcucr (s : State) (p : Ptr) (v : Word) : (s.setDataPtr p v).mcucr = s.mcucr := by
  unfold State.setDataPtr; split <;> rfl
@[simp] theorem State.setDataPtr_spmcr (s : State) (p : Ptr) (v : Word) : (s.setDataPtr p v).spmcr = s.spmcr := by
  unfold State.setDataPtr; split <;> rfl
@[simp] theorem State.setDataPtr_spmWindow (s : State) (p : Ptr) (v : Word) :
    (s.setDataPtr p v).spmWindow =
      s.spmWindow := by
  unfold State.setDataPtr; split <;> rfl
@[simp] theorem State.setDataPtr_spmJob (s : State) (p : Ptr) (v : Word) : (s.setDataPtr p v).spmJob = s.spmJob := by
  unfold State.setDataPtr; split <;> rfl
@[simp] theorem State.setDataPtr_lockBits (s : State) (p : Ptr) (v : Word) :
    (s.setDataPtr p v).lockBits = s.lockBits := by
  unfold State.setDataPtr; split <;> rfl
@[simp] theorem State.setDataPtr_irqFlags (s : State) (p : Ptr) (v : Word) :
    (s.setDataPtr p v).irqFlags = s.irqFlags := by
  unfold State.setDataPtr; split <;> rfl
@[simp] theorem State.setDataPtr_irqLevels (s : State) (p : Ptr) (v : Word) :
    (s.setDataPtr p v).irqLevels =
      s.irqLevels := by
  unfold State.setDataPtr; split <;> rfl
@[simp] theorem State.setDataPtr_irqEnables (s : State) (p : Ptr) (v : Word) :
    (s.setDataPtr p v).irqEnables =
      s.irqEnables := by
  unfold State.setDataPtr; split <;> rfl
@[simp] theorem State.setDataPtr_holdoff (s : State) (p : Ptr) (v : Word) : (s.setDataPtr p v).holdoff = s.holdoff := by
  unfold State.setDataPtr; split <;> rfl
@[simp] theorem State.setDataPtr_asleep (s : State) (p : Ptr) (v : Word) : (s.setDataPtr p v).asleep = s.asleep := by
  unfold State.setDataPtr; split <;> rfl
@[simp] theorem State.setDataPtr_watchdog (s : State) (p : Ptr) (v : Word) :
    (s.setDataPtr p v).watchdog = s.watchdog := by
  unfold State.setDataPtr; split <;> rfl
@[simp] theorem State.setDataPtr_ioEvents (s : State) (p : Ptr) (v : Word) :
    (s.setDataPtr p v).ioEvents = s.ioEvents := by
  unfold State.setDataPtr; split <;> rfl
@[simp] theorem State.setDataPtr_agenda (s : State) (p : Ptr) (v : Word) : (s.setDataPtr p v).agenda = s.agenda := by
  unfold State.setDataPtr; split <;> rfl
@[simp] theorem State.setDataPtr_draws (s : State) (p : Ptr) (v : Word) : (s.setDataPtr p v).draws = s.draws := by
  unfold State.setDataPtr; split <;> rfl
@[simp] theorem State.setDataPtr_launch (s : State) (p : Ptr) (v : Word) : (s.setDataPtr p v).launch = s.launch := by
  unfold State.setDataPtr; split <;> rfl
@[simp] theorem State.setDataPtr_flag (s : State) (p : Ptr) (v : Word) (c : BitNum) :
    (s.setDataPtr p v).flag c = s.flag c := by
  unfold State.setDataPtr; split <;> rfl

/-! ## setFlag -/

@[simp] theorem State.setFlag_regs (s : State) (b : BitNum) (x : Bool) : (s.setFlag b x).regs = s.regs := rfl
@[simp] theorem State.setFlag_pc (s : State) (b : BitNum) (x : Bool) : (s.setFlag b x).pc = s.pc := rfl
@[simp] theorem State.setFlag_pcWrapped (s : State) (b : BitNum) (x : Bool) :
    (s.setFlag b x).pcWrapped =
      s.pcWrapped := rfl
@[simp] theorem State.setFlag_sreg (s : State) (b : BitNum) (x : Bool) :
    (s.setFlag b x).sreg =
      setBit s.sreg b x := rfl
@[simp] theorem State.setFlag_sp (s : State) (b : BitNum) (x : Bool) : (s.setFlag b x).sp = s.sp := rfl
@[simp] theorem State.setFlag_rampz (s : State) (b : BitNum) (x : Bool) : (s.setFlag b x).rampz = s.rampz := rfl
@[simp] theorem State.setFlag_mem (s : State) (b : BitNum) (x : Bool) : (s.setFlag b x).mem = s.mem := rfl
@[simp] theorem State.setFlag_eearh (s : State) (b : BitNum) (x : Bool) : (s.setFlag b x).eearh = s.eearh := rfl
@[simp] theorem State.setFlag_eearl (s : State) (b : BitNum) (x : Bool) : (s.setFlag b x).eearl = s.eearl := rfl
@[simp] theorem State.setFlag_eedr (s : State) (b : BitNum) (x : Bool) : (s.setFlag b x).eedr = s.eedr := rfl
@[simp] theorem State.setFlag_eerie (s : State) (b : BitNum) (x : Bool) : (s.setFlag b x).eerie = s.eerie := rfl
@[simp] theorem State.setFlag_eeWindow (s : State) (b : BitNum) (x : Bool) :
    (s.setFlag b x).eeWindow =
      s.eeWindow := rfl
@[simp] theorem State.setFlag_eeWrite (s : State) (b : BitNum) (x : Bool) : (s.setFlag b x).eeWrite = s.eeWrite := rfl
@[simp] theorem State.setFlag_mcucr (s : State) (b : BitNum) (x : Bool) : (s.setFlag b x).mcucr = s.mcucr := rfl
@[simp] theorem State.setFlag_spmcr (s : State) (b : BitNum) (x : Bool) : (s.setFlag b x).spmcr = s.spmcr := rfl
@[simp] theorem State.setFlag_spmWindow (s : State) (b : BitNum) (x : Bool) :
    (s.setFlag b x).spmWindow =
      s.spmWindow := rfl
@[simp] theorem State.setFlag_spmJob (s : State) (b : BitNum) (x : Bool) : (s.setFlag b x).spmJob = s.spmJob := rfl
@[simp] theorem State.setFlag_lockBits (s : State) (b : BitNum) (x : Bool) :
    (s.setFlag b x).lockBits =
      s.lockBits := rfl
@[simp] theorem State.setFlag_irqFlags (s : State) (b : BitNum) (x : Bool) :
    (s.setFlag b x).irqFlags =
      s.irqFlags := rfl
@[simp] theorem State.setFlag_irqLevels (s : State) (b : BitNum) (x : Bool) :
    (s.setFlag b x).irqLevels =
      s.irqLevels := rfl
@[simp] theorem State.setFlag_irqEnables (s : State) (b : BitNum) (x : Bool) :
    (s.setFlag b x).irqEnables =
      s.irqEnables := rfl
@[simp] theorem State.setFlag_holdoff (s : State) (b : BitNum) (x : Bool) : (s.setFlag b x).holdoff = s.holdoff := rfl
@[simp] theorem State.setFlag_asleep (s : State) (b : BitNum) (x : Bool) : (s.setFlag b x).asleep = s.asleep := rfl
@[simp] theorem State.setFlag_watchdog (s : State) (b : BitNum) (x : Bool) :
    (s.setFlag b x).watchdog =
      s.watchdog := rfl
@[simp] theorem State.setFlag_ioEvents (s : State) (b : BitNum) (x : Bool) :
    (s.setFlag b x).ioEvents =
      s.ioEvents := rfl
@[simp] theorem State.setFlag_agenda (s : State) (b : BitNum) (x : Bool) : (s.setFlag b x).agenda = s.agenda := rfl
@[simp] theorem State.setFlag_draws (s : State) (b : BitNum) (x : Bool) : (s.setFlag b x).draws = s.draws := rfl
@[simp] theorem State.setFlag_launch (s : State) (b : BitNum) (x : Bool) : (s.setFlag b x).launch = s.launch := rfl
@[simp] theorem State.setFlag_reg (s : State) (b : BitNum) (x : Bool) (j : Reg) : (s.setFlag b x).reg j = s.reg j := rfl
@[simp] theorem State.setFlag_ptr (s : State) (b : BitNum) (x : Bool) (q : Ptr) : (s.setFlag b x).ptr q = s.ptr q := rfl
@[simp] theorem State.setFlag_dataPtr (s : State) (b : BitNum) (x : Bool) (q : Ptr) :
    (s.setFlag b x).dataPtr q = s.dataPtr q := rfl

/-! ## setSp -/

@[simp] theorem State.setSp_regs (s : State) (v : Word) : (s.setSp v).regs = s.regs := rfl
@[simp] theorem State.setSp_pc (s : State) (v : Word) : (s.setSp v).pc = s.pc := rfl
@[simp] theorem State.setSp_pcWrapped (s : State) (v : Word) : (s.setSp v).pcWrapped = s.pcWrapped := rfl
@[simp] theorem State.setSp_sreg (s : State) (v : Word) : (s.setSp v).sreg = s.sreg := rfl
@[simp] theorem State.setSp_sp (s : State) (v : Word) :
    (s.setSp v).sp =
      v &&& BitVec.ofNat 16 (2 ^ s.launch.device.spBits - 1) := rfl
@[simp] theorem State.setSp_rampz (s : State) (v : Word) : (s.setSp v).rampz = s.rampz := rfl
@[simp] theorem State.setSp_mem (s : State) (v : Word) : (s.setSp v).mem = s.mem := rfl
@[simp] theorem State.setSp_eearh (s : State) (v : Word) : (s.setSp v).eearh = s.eearh := rfl
@[simp] theorem State.setSp_eearl (s : State) (v : Word) : (s.setSp v).eearl = s.eearl := rfl
@[simp] theorem State.setSp_eedr (s : State) (v : Word) : (s.setSp v).eedr = s.eedr := rfl
@[simp] theorem State.setSp_eerie (s : State) (v : Word) : (s.setSp v).eerie = s.eerie := rfl
@[simp] theorem State.setSp_eeWindow (s : State) (v : Word) : (s.setSp v).eeWindow = s.eeWindow := rfl
@[simp] theorem State.setSp_eeWrite (s : State) (v : Word) : (s.setSp v).eeWrite = s.eeWrite := rfl
@[simp] theorem State.setSp_mcucr (s : State) (v : Word) : (s.setSp v).mcucr = s.mcucr := rfl
@[simp] theorem State.setSp_spmcr (s : State) (v : Word) : (s.setSp v).spmcr = s.spmcr := rfl
@[simp] theorem State.setSp_spmWindow (s : State) (v : Word) : (s.setSp v).spmWindow = s.spmWindow := rfl
@[simp] theorem State.setSp_spmJob (s : State) (v : Word) : (s.setSp v).spmJob = s.spmJob := rfl
@[simp] theorem State.setSp_lockBits (s : State) (v : Word) : (s.setSp v).lockBits = s.lockBits := rfl
@[simp] theorem State.setSp_irqFlags (s : State) (v : Word) : (s.setSp v).irqFlags = s.irqFlags := rfl
@[simp] theorem State.setSp_irqLevels (s : State) (v : Word) : (s.setSp v).irqLevels = s.irqLevels := rfl
@[simp] theorem State.setSp_irqEnables (s : State) (v : Word) : (s.setSp v).irqEnables = s.irqEnables := rfl
@[simp] theorem State.setSp_holdoff (s : State) (v : Word) : (s.setSp v).holdoff = s.holdoff := rfl
@[simp] theorem State.setSp_asleep (s : State) (v : Word) : (s.setSp v).asleep = s.asleep := rfl
@[simp] theorem State.setSp_watchdog (s : State) (v : Word) : (s.setSp v).watchdog = s.watchdog := rfl
@[simp] theorem State.setSp_ioEvents (s : State) (v : Word) : (s.setSp v).ioEvents = s.ioEvents := rfl
@[simp] theorem State.setSp_agenda (s : State) (v : Word) : (s.setSp v).agenda = s.agenda := rfl
@[simp] theorem State.setSp_draws (s : State) (v : Word) : (s.setSp v).draws = s.draws := rfl
@[simp] theorem State.setSp_launch (s : State) (v : Word) : (s.setSp v).launch = s.launch := rfl
@[simp] theorem State.setSp_reg (s : State) (v : Word) (j : Reg) : (s.setSp v).reg j = s.reg j := rfl
@[simp] theorem State.setSp_ptr (s : State) (v : Word) (q : Ptr) : (s.setSp v).ptr q = s.ptr q := rfl
@[simp] theorem State.setSp_dataPtr (s : State) (v : Word) (q : Ptr) : (s.setSp v).dataPtr q = s.dataPtr q := rfl
@[simp] theorem State.setSp_flag (s : State) (v : Word) (c : BitNum) : (s.setSp v).flag c = s.flag c := rfl

/-! ## setRampz -/

@[simp] theorem State.setRampz_regs (s : State) (v : Byte) : (s.setRampz v).regs = s.regs := rfl
@[simp] theorem State.setRampz_pc (s : State) (v : Byte) : (s.setRampz v).pc = s.pc := rfl
@[simp] theorem State.setRampz_pcWrapped (s : State) (v : Byte) : (s.setRampz v).pcWrapped = s.pcWrapped := rfl
@[simp] theorem State.setRampz_sreg (s : State) (v : Byte) : (s.setRampz v).sreg = s.sreg := rfl
@[simp] theorem State.setRampz_sp (s : State) (v : Byte) : (s.setRampz v).sp = s.sp := rfl
@[simp] theorem State.setRampz_rampz (s : State) (v : Byte) :
    (s.setRampz v).rampz =
      v &&& BitVec.ofNat 8 (2 ^ rampzBits s.launch.device - 1) := rfl
@[simp] theorem State.setRampz_mem (s : State) (v : Byte) : (s.setRampz v).mem = s.mem := rfl
@[simp] theorem State.setRampz_eearh (s : State) (v : Byte) : (s.setRampz v).eearh = s.eearh := rfl
@[simp] theorem State.setRampz_eearl (s : State) (v : Byte) : (s.setRampz v).eearl = s.eearl := rfl
@[simp] theorem State.setRampz_eedr (s : State) (v : Byte) : (s.setRampz v).eedr = s.eedr := rfl
@[simp] theorem State.setRampz_eerie (s : State) (v : Byte) : (s.setRampz v).eerie = s.eerie := rfl
@[simp] theorem State.setRampz_eeWindow (s : State) (v : Byte) : (s.setRampz v).eeWindow = s.eeWindow := rfl
@[simp] theorem State.setRampz_eeWrite (s : State) (v : Byte) : (s.setRampz v).eeWrite = s.eeWrite := rfl
@[simp] theorem State.setRampz_mcucr (s : State) (v : Byte) : (s.setRampz v).mcucr = s.mcucr := rfl
@[simp] theorem State.setRampz_spmcr (s : State) (v : Byte) : (s.setRampz v).spmcr = s.spmcr := rfl
@[simp] theorem State.setRampz_spmWindow (s : State) (v : Byte) : (s.setRampz v).spmWindow = s.spmWindow := rfl
@[simp] theorem State.setRampz_spmJob (s : State) (v : Byte) : (s.setRampz v).spmJob = s.spmJob := rfl
@[simp] theorem State.setRampz_lockBits (s : State) (v : Byte) : (s.setRampz v).lockBits = s.lockBits := rfl
@[simp] theorem State.setRampz_irqFlags (s : State) (v : Byte) : (s.setRampz v).irqFlags = s.irqFlags := rfl
@[simp] theorem State.setRampz_irqLevels (s : State) (v : Byte) : (s.setRampz v).irqLevels = s.irqLevels := rfl
@[simp] theorem State.setRampz_irqEnables (s : State) (v : Byte) : (s.setRampz v).irqEnables = s.irqEnables := rfl
@[simp] theorem State.setRampz_holdoff (s : State) (v : Byte) : (s.setRampz v).holdoff = s.holdoff := rfl
@[simp] theorem State.setRampz_asleep (s : State) (v : Byte) : (s.setRampz v).asleep = s.asleep := rfl
@[simp] theorem State.setRampz_watchdog (s : State) (v : Byte) : (s.setRampz v).watchdog = s.watchdog := rfl
@[simp] theorem State.setRampz_ioEvents (s : State) (v : Byte) : (s.setRampz v).ioEvents = s.ioEvents := rfl
@[simp] theorem State.setRampz_agenda (s : State) (v : Byte) : (s.setRampz v).agenda = s.agenda := rfl
@[simp] theorem State.setRampz_draws (s : State) (v : Byte) : (s.setRampz v).draws = s.draws := rfl
@[simp] theorem State.setRampz_launch (s : State) (v : Byte) : (s.setRampz v).launch = s.launch := rfl
@[simp] theorem State.setRampz_reg (s : State) (v : Byte) (j : Reg) : (s.setRampz v).reg j = s.reg j := rfl
@[simp] theorem State.setRampz_ptr (s : State) (v : Byte) (q : Ptr) : (s.setRampz v).ptr q = s.ptr q := rfl
@[simp] theorem State.setRampz_dataPtr (s : State) (v : Byte) (q : Ptr) : (s.setRampz v).dataPtr q = s.dataPtr q := rfl
@[simp] theorem State.setRampz_flag (s : State) (v : Byte) (c : BitNum) : (s.setRampz v).flag c = s.flag c := rfl

/-! ## advance -/

@[simp] theorem State.advance_regs (s : State) (n : Nat) : (s.advance n).regs = s.regs := rfl
@[simp] theorem State.advance_pc (s : State) (n : Nat) :
    (s.advance n).pc =
      BitVec.ofNat 16 ((s.pc.toNat + n) % 2 ^ s.launch.device.pcBits) := rfl
@[simp] theorem State.advance_pcWrapped (s : State) (n : Nat) :
    (s.advance n).pcWrapped =
      decide (2 ^ s.launch.device.pcBits ≤ s.pc.toNat + n) := rfl
@[simp] theorem State.advance_sreg (s : State) (n : Nat) : (s.advance n).sreg = s.sreg := rfl
@[simp] theorem State.advance_sp (s : State) (n : Nat) : (s.advance n).sp = s.sp := rfl
@[simp] theorem State.advance_rampz (s : State) (n : Nat) : (s.advance n).rampz = s.rampz := rfl
@[simp] theorem State.advance_mem (s : State) (n : Nat) : (s.advance n).mem = s.mem := rfl
@[simp] theorem State.advance_eearh (s : State) (n : Nat) : (s.advance n).eearh = s.eearh := rfl
@[simp] theorem State.advance_eearl (s : State) (n : Nat) : (s.advance n).eearl = s.eearl := rfl
@[simp] theorem State.advance_eedr (s : State) (n : Nat) : (s.advance n).eedr = s.eedr := rfl
@[simp] theorem State.advance_eerie (s : State) (n : Nat) : (s.advance n).eerie = s.eerie := rfl
@[simp] theorem State.advance_eeWindow (s : State) (n : Nat) : (s.advance n).eeWindow = s.eeWindow := rfl
@[simp] theorem State.advance_eeWrite (s : State) (n : Nat) : (s.advance n).eeWrite = s.eeWrite := rfl
@[simp] theorem State.advance_mcucr (s : State) (n : Nat) : (s.advance n).mcucr = s.mcucr := rfl
@[simp] theorem State.advance_spmcr (s : State) (n : Nat) : (s.advance n).spmcr = s.spmcr := rfl
@[simp] theorem State.advance_spmWindow (s : State) (n : Nat) : (s.advance n).spmWindow = s.spmWindow := rfl
@[simp] theorem State.advance_spmJob (s : State) (n : Nat) : (s.advance n).spmJob = s.spmJob := rfl
@[simp] theorem State.advance_lockBits (s : State) (n : Nat) : (s.advance n).lockBits = s.lockBits := rfl
@[simp] theorem State.advance_irqFlags (s : State) (n : Nat) : (s.advance n).irqFlags = s.irqFlags := rfl
@[simp] theorem State.advance_irqLevels (s : State) (n : Nat) : (s.advance n).irqLevels = s.irqLevels := rfl
@[simp] theorem State.advance_irqEnables (s : State) (n : Nat) : (s.advance n).irqEnables = s.irqEnables := rfl
@[simp] theorem State.advance_holdoff (s : State) (n : Nat) : (s.advance n).holdoff = s.holdoff := rfl
@[simp] theorem State.advance_asleep (s : State) (n : Nat) : (s.advance n).asleep = s.asleep := rfl
@[simp] theorem State.advance_watchdog (s : State) (n : Nat) : (s.advance n).watchdog = s.watchdog := rfl
@[simp] theorem State.advance_ioEvents (s : State) (n : Nat) : (s.advance n).ioEvents = s.ioEvents := rfl
@[simp] theorem State.advance_agenda (s : State) (n : Nat) : (s.advance n).agenda = s.agenda := rfl
@[simp] theorem State.advance_draws (s : State) (n : Nat) : (s.advance n).draws = s.draws := rfl
@[simp] theorem State.advance_launch (s : State) (n : Nat) : (s.advance n).launch = s.launch := rfl
@[simp] theorem State.advance_reg (s : State) (n : Nat) (j : Reg) : (s.advance n).reg j = s.reg j := rfl
@[simp] theorem State.advance_ptr (s : State) (n : Nat) (q : Ptr) : (s.advance n).ptr q = s.ptr q := rfl
@[simp] theorem State.advance_dataPtr (s : State) (n : Nat) (q : Ptr) : (s.advance n).dataPtr q = s.dataPtr q := rfl
@[simp] theorem State.advance_flag (s : State) (n : Nat) (c : BitNum) : (s.advance n).flag c = s.flag c := rfl

/-! ## tick -/

@[simp] theorem State.tick_regs (s : State) : s.tick.regs = s.regs := rfl
@[simp] theorem State.tick_pc (s : State) : s.tick.pc = s.pc := rfl
@[simp] theorem State.tick_pcWrapped (s : State) : s.tick.pcWrapped = s.pcWrapped := rfl
@[simp] theorem State.tick_sreg (s : State) : s.tick.sreg = s.sreg := rfl
@[simp] theorem State.tick_sp (s : State) : s.tick.sp = s.sp := rfl
@[simp] theorem State.tick_rampz (s : State) : s.tick.rampz = s.rampz := rfl
@[simp] theorem State.tick_mem (s : State) : s.tick.mem = s.mem := rfl
@[simp] theorem State.tick_eearh (s : State) : s.tick.eearh = s.eearh := rfl
@[simp] theorem State.tick_eearl (s : State) : s.tick.eearl = s.eearl := rfl
@[simp] theorem State.tick_eedr (s : State) : s.tick.eedr = s.eedr := rfl
@[simp] theorem State.tick_eerie (s : State) : s.tick.eerie = s.eerie := rfl
@[simp] theorem State.tick_eeWindow (s : State) : s.tick.eeWindow = s.eeWindow := rfl
@[simp] theorem State.tick_eeWrite (s : State) : s.tick.eeWrite = s.eeWrite := rfl
@[simp] theorem State.tick_mcucr (s : State) : s.tick.mcucr = s.mcucr := rfl
@[simp] theorem State.tick_spmcr (s : State) : s.tick.spmcr = s.spmcr := rfl
@[simp] theorem State.tick_spmWindow (s : State) : s.tick.spmWindow = s.spmWindow := rfl
@[simp] theorem State.tick_spmJob (s : State) : s.tick.spmJob = s.spmJob := rfl
@[simp] theorem State.tick_lockBits (s : State) : s.tick.lockBits = s.lockBits := rfl
@[simp] theorem State.tick_irqFlags (s : State) : s.tick.irqFlags = s.irqFlags := rfl
@[simp] theorem State.tick_irqLevels (s : State) : s.tick.irqLevels = s.irqLevels := rfl
@[simp] theorem State.tick_irqEnables (s : State) : s.tick.irqEnables = s.irqEnables := rfl
@[simp] theorem State.tick_holdoff (s : State) : s.tick.holdoff = s.holdoff := rfl
@[simp] theorem State.tick_asleep (s : State) : s.tick.asleep = s.asleep := rfl
@[simp] theorem State.tick_watchdog (s : State) : s.tick.watchdog = s.watchdog := rfl
@[simp] theorem State.tick_ioEvents (s : State) : s.tick.ioEvents = s.ioEvents := rfl
@[simp] theorem State.tick_agenda (s : State) : s.tick.agenda = s.agenda := rfl
@[simp] theorem State.tick_draws (s : State) : s.tick.draws = s.draws + 1 := rfl
@[simp] theorem State.tick_launch (s : State) : s.tick.launch = s.launch := rfl
@[simp] theorem State.tick_reg (s : State) (j : Reg) : s.tick.reg j = s.reg j := rfl
@[simp] theorem State.tick_ptr (s : State) (q : Ptr) : s.tick.ptr q = s.ptr q := rfl
@[simp] theorem State.tick_dataPtr (s : State) (q : Ptr) : s.tick.dataPtr q = s.dataPtr q := rfl
@[simp] theorem State.tick_flag (s : State) (c : BitNum) : s.tick.flag c = s.flag c := rfl

/-! ## retire -/

@[simp] theorem retire_regs (s : State) (n : Nat) : (retire n s).regs = s.regs := rfl
@[simp] theorem retire_pc (s : State) (n : Nat) :
    (retire n s).pc =
      BitVec.ofNat 16 ((s.pc.toNat + n) % 2 ^ s.launch.device.pcBits) := rfl
@[simp] theorem retire_pcWrapped (s : State) (n : Nat) :
    (retire n s).pcWrapped =
      decide (2 ^ s.launch.device.pcBits ≤ s.pc.toNat + n) := rfl
@[simp] theorem retire_sreg (s : State) (n : Nat) : (retire n s).sreg = s.sreg := rfl
@[simp] theorem retire_sp (s : State) (n : Nat) : (retire n s).sp = s.sp := rfl
@[simp] theorem retire_rampz (s : State) (n : Nat) : (retire n s).rampz = s.rampz := rfl
@[simp] theorem retire_mem (s : State) (n : Nat) : (retire n s).mem = s.mem := rfl
@[simp] theorem retire_eearh (s : State) (n : Nat) : (retire n s).eearh = s.eearh := rfl
@[simp] theorem retire_eearl (s : State) (n : Nat) : (retire n s).eearl = s.eearl := rfl
@[simp] theorem retire_eedr (s : State) (n : Nat) : (retire n s).eedr = s.eedr := rfl
@[simp] theorem retire_eerie (s : State) (n : Nat) : (retire n s).eerie = s.eerie := rfl
@[simp] theorem retire_eeWindow (s : State) (n : Nat) : (retire n s).eeWindow = s.eeWindow.age := rfl
@[simp] theorem retire_eeWrite (s : State) (n : Nat) : (retire n s).eeWrite = s.eeWrite := rfl
@[simp] theorem retire_mcucr (s : State) (n : Nat) : (retire n s).mcucr = s.mcucr := rfl
@[simp] theorem retire_spmcr (s : State) (n : Nat) : (retire n s).spmcr = s.spmcr := rfl
@[simp] theorem retire_spmWindow (s : State) (n : Nat) : (retire n s).spmWindow = s.spmWindow.age := rfl
@[simp] theorem retire_spmJob (s : State) (n : Nat) : (retire n s).spmJob = s.spmJob := rfl
@[simp] theorem retire_lockBits (s : State) (n : Nat) : (retire n s).lockBits = s.lockBits := rfl
@[simp] theorem retire_irqFlags (s : State) (n : Nat) : (retire n s).irqFlags = s.irqFlags := rfl
@[simp] theorem retire_irqLevels (s : State) (n : Nat) : (retire n s).irqLevels = s.irqLevels := rfl
@[simp] theorem retire_irqEnables (s : State) (n : Nat) : (retire n s).irqEnables = s.irqEnables := rfl
@[simp] theorem retire_holdoff (s : State) (n : Nat) : (retire n s).holdoff = false := rfl
@[simp] theorem retire_asleep (s : State) (n : Nat) : (retire n s).asleep = s.asleep := rfl
@[simp] theorem retire_watchdog (s : State) (n : Nat) : (retire n s).watchdog = s.watchdog := rfl
@[simp] theorem retire_ioEvents (s : State) (n : Nat) : (retire n s).ioEvents = s.ioEvents := rfl
@[simp] theorem retire_agenda (s : State) (n : Nat) : (retire n s).agenda = s.agenda := rfl
@[simp] theorem retire_draws (s : State) (n : Nat) : (retire n s).draws = s.draws + 1 := rfl
@[simp] theorem retire_launch (s : State) (n : Nat) : (retire n s).launch = s.launch := rfl
@[simp] theorem retire_reg (s : State) (n : Nat) (j : Reg) : (retire n s).reg j = s.reg j := rfl
@[simp] theorem retire_ptr (s : State) (n : Nat) (q : Ptr) : (retire n s).ptr q = s.ptr q := rfl
@[simp] theorem retire_dataPtr (s : State) (n : Nat) (q : Ptr) : (retire n s).dataPtr q = s.dataPtr q := rfl
@[simp] theorem retire_flag (s : State) (n : Nat) (c : BitNum) : (retire n s).flag c = s.flag c := rfl

/-! ## enterHandler -/

@[simp] theorem State.enterHandler_regs (s : State) : s.enterHandler.regs = s.regs := rfl
@[simp] theorem State.enterHandler_pc (s : State) : s.enterHandler.pc = s.pc := rfl
@[simp] theorem State.enterHandler_pcWrapped (s : State) : s.enterHandler.pcWrapped = s.pcWrapped := rfl
@[simp] theorem State.enterHandler_sp (s : State) : s.enterHandler.sp = s.sp := rfl
@[simp] theorem State.enterHandler_rampz (s : State) : s.enterHandler.rampz = s.rampz := rfl
@[simp] theorem State.enterHandler_mem (s : State) : s.enterHandler.mem = s.mem := rfl
@[simp] theorem State.enterHandler_eearh (s : State) : s.enterHandler.eearh = s.eearh := rfl
@[simp] theorem State.enterHandler_eearl (s : State) : s.enterHandler.eearl = s.eearl := rfl
@[simp] theorem State.enterHandler_eedr (s : State) : s.enterHandler.eedr = s.eedr := rfl
@[simp] theorem State.enterHandler_eerie (s : State) : s.enterHandler.eerie = s.eerie := rfl
@[simp] theorem State.enterHandler_eeWindow (s : State) : s.enterHandler.eeWindow = s.eeWindow.interrupted := rfl
@[simp] theorem State.enterHandler_eeWrite (s : State) : s.enterHandler.eeWrite = s.eeWrite := rfl
@[simp] theorem State.enterHandler_mcucr (s : State) : s.enterHandler.mcucr = s.mcucr := rfl
@[simp] theorem State.enterHandler_spmcr (s : State) : s.enterHandler.spmcr = s.spmcr := rfl
@[simp] theorem State.enterHandler_spmWindow (s : State) : s.enterHandler.spmWindow = s.spmWindow.interrupted := rfl
@[simp] theorem State.enterHandler_spmJob (s : State) : s.enterHandler.spmJob = s.spmJob := rfl
@[simp] theorem State.enterHandler_lockBits (s : State) : s.enterHandler.lockBits = s.lockBits := rfl
@[simp] theorem State.enterHandler_irqFlags (s : State) : s.enterHandler.irqFlags = s.irqFlags := rfl
@[simp] theorem State.enterHandler_irqLevels (s : State) : s.enterHandler.irqLevels = s.irqLevels := rfl
@[simp] theorem State.enterHandler_irqEnables (s : State) : s.enterHandler.irqEnables = s.irqEnables := rfl
@[simp] theorem State.enterHandler_holdoff (s : State) : s.enterHandler.holdoff = s.holdoff := rfl
@[simp] theorem State.enterHandler_asleep (s : State) : s.enterHandler.asleep = s.asleep := rfl
@[simp] theorem State.enterHandler_watchdog (s : State) : s.enterHandler.watchdog = s.watchdog := rfl
@[simp] theorem State.enterHandler_ioEvents (s : State) : s.enterHandler.ioEvents = s.ioEvents := rfl
@[simp] theorem State.enterHandler_agenda (s : State) : s.enterHandler.agenda = s.agenda := rfl
@[simp] theorem State.enterHandler_draws (s : State) : s.enterHandler.draws = s.draws := rfl
@[simp] theorem State.enterHandler_launch (s : State) : s.enterHandler.launch = s.launch := rfl
@[simp] theorem State.enterHandler_reg (s : State) (j : Reg) : s.enterHandler.reg j = s.reg j := rfl
@[simp] theorem State.enterHandler_ptr (s : State) (q : Ptr) : s.enterHandler.ptr q = s.ptr q := rfl
@[simp] theorem State.enterHandler_dataPtr (s : State) (q : Ptr) : s.enterHandler.dataPtr q = s.dataPtr q := rfl
@[simp] theorem State.enterHandler_flag (s : State) (c : BitNum) :
    s.enterHandler.flag c = (s.setFlag flagI false).flag c := rfl

/-! ## atVector -/

@[simp] theorem State.atVector_regs (s : State) (v : Irq) : (s.atVector v).regs = s.regs := rfl
@[simp] theorem State.atVector_pc (s : State) (v : Irq) :
    (s.atVector v).pc =
      BitVec.ofNat 16 (vectorAddr s.launch.device v.number % 2 ^ s.launch.device.pcBits) := rfl
@[simp] theorem State.atVector_pcWrapped (s : State) (v : Irq) : (s.atVector v).pcWrapped = false := rfl
@[simp] theorem State.atVector_sreg (s : State) (v : Irq) : (s.atVector v).sreg = s.sreg := rfl
@[simp] theorem State.atVector_sp (s : State) (v : Irq) : (s.atVector v).sp = s.sp := rfl
@[simp] theorem State.atVector_rampz (s : State) (v : Irq) : (s.atVector v).rampz = s.rampz := rfl
@[simp] theorem State.atVector_mem (s : State) (v : Irq) : (s.atVector v).mem = s.mem := rfl
@[simp] theorem State.atVector_eearh (s : State) (v : Irq) : (s.atVector v).eearh = s.eearh := rfl
@[simp] theorem State.atVector_eearl (s : State) (v : Irq) : (s.atVector v).eearl = s.eearl := rfl
@[simp] theorem State.atVector_eedr (s : State) (v : Irq) : (s.atVector v).eedr = s.eedr := rfl
@[simp] theorem State.atVector_eerie (s : State) (v : Irq) : (s.atVector v).eerie = s.eerie := rfl
@[simp] theorem State.atVector_eeWindow (s : State) (v : Irq) :
    (s.atVector v).eeWindow =
      s.eeWindow.interrupted := rfl
@[simp] theorem State.atVector_eeWrite (s : State) (v : Irq) : (s.atVector v).eeWrite = s.eeWrite := rfl
@[simp] theorem State.atVector_mcucr (s : State) (v : Irq) : (s.atVector v).mcucr = s.mcucr := rfl
@[simp] theorem State.atVector_spmcr (s : State) (v : Irq) : (s.atVector v).spmcr = s.spmcr := rfl
@[simp] theorem State.atVector_spmWindow (s : State) (v : Irq) :
    (s.atVector v).spmWindow =
      s.spmWindow.interrupted := rfl
@[simp] theorem State.atVector_spmJob (s : State) (v : Irq) : (s.atVector v).spmJob = s.spmJob := rfl
@[simp] theorem State.atVector_lockBits (s : State) (v : Irq) : (s.atVector v).lockBits = s.lockBits := rfl
@[simp] theorem State.atVector_irqFlags (s : State) (v : Irq) :
    (s.atVector v).irqFlags =
      if v.clearedByEntry then setIrqBit s.irqFlags v.number false else s.irqFlags := rfl
@[simp] theorem State.atVector_irqLevels (s : State) (v : Irq) : (s.atVector v).irqLevels = s.irqLevels := rfl
@[simp] theorem State.atVector_irqEnables (s : State) (v : Irq) : (s.atVector v).irqEnables = s.irqEnables := rfl
@[simp] theorem State.atVector_holdoff (s : State) (v : Irq) : (s.atVector v).holdoff = s.holdoff := rfl
@[simp] theorem State.atVector_asleep (s : State) (v : Irq) : (s.atVector v).asleep = false := rfl
@[simp] theorem State.atVector_watchdog (s : State) (v : Irq) : (s.atVector v).watchdog = s.watchdog := rfl
@[simp] theorem State.atVector_ioEvents (s : State) (v : Irq) : (s.atVector v).ioEvents = s.ioEvents := rfl
@[simp] theorem State.atVector_agenda (s : State) (v : Irq) : (s.atVector v).agenda = s.agenda := rfl
@[simp] theorem State.atVector_draws (s : State) (v : Irq) : (s.atVector v).draws = s.draws := rfl
@[simp] theorem State.atVector_launch (s : State) (v : Irq) : (s.atVector v).launch = s.launch := rfl
@[simp] theorem State.atVector_reg (s : State) (v : Irq) (j : Reg) : (s.atVector v).reg j = s.reg j := rfl
@[simp] theorem State.atVector_ptr (s : State) (v : Irq) (q : Ptr) : (s.atVector v).ptr q = s.ptr q := rfl
@[simp] theorem State.atVector_dataPtr (s : State) (v : Irq) (q : Ptr) : (s.atVector v).dataPtr q = s.dataPtr q := rfl
@[simp] theorem State.atVector_flag (s : State) (v : Irq) (c : BitNum) : (s.atVector v).flag c = s.flag c := rfl

/-! ## The register file -/

/-- Registers depend on the register file alone. -/
theorem State.reg_congr {s t : State} (h : t.regs = s.regs) (i : Reg) : t.reg i = s.reg i := by
  simp [State.reg, h]

@[simp] theorem State.reg_setReg_same (s : State) (i : Reg) (v : Byte) : (s.setReg i v).reg i = v := by
  simp [State.reg, State.setReg]

theorem State.reg_setReg_other (s : State) {i j : Reg} (v : Byte) (h : j ≠ i) : (s.setReg i v).reg j = s.reg j := by
  have h' : i.toNat ≠ j.toNat := fun e => h (BitVec.eq_of_toNat_eq e.symm)
  simp [State.reg, State.setReg, Vector.getElem_set_ne, h']

theorem State.reg_setReg (s : State) (i j : Reg) (v : Byte) :
    (s.setReg i v).reg j = if j = i then v else s.reg j := by
  split
  · next h => subst h; simp
  · next h => exact s.reg_setReg_other v h

theorem joinBytes_highByte_lowByte (w : Word) : joinBytes (highByte w) (lowByte w) = w := by
  unfold joinBytes highByte lowByte
  apply BitVec.eq_of_getLsbD_eq
  intro i hi
  simp only [BitVec.getLsbD_append, BitVec.getLsbD_extractLsb']
  split
  · next h => simp [h]
  · next h =>
    have : i - 8 < 8 := by omega
    have e : 8 + (i - 8) = i := by omega
    simp [this, e]

theorem lowByte_joinBytes (hi lo : Byte) : lowByte (joinBytes hi lo) = lo := by
  unfold joinBytes lowByte
  apply BitVec.eq_of_getLsbD_eq
  intro i h
  rw [BitVec.getLsbD_extractLsb', BitVec.getLsbD_append]
  simp only [Nat.zero_add, h, decide_true, Bool.true_and, if_true]

theorem highByte_joinBytes (hi lo : Byte) : highByte (joinBytes hi lo) = hi := by
  unfold joinBytes highByte
  apply BitVec.eq_of_getLsbD_eq
  intro i h
  rw [BitVec.getLsbD_extractLsb', BitVec.getLsbD_append]
  have h1 : ¬ 8 + i < 8 := by omega
  have h2 : 8 + i - 8 = i := by omega
  simp only [h, h1, h2, decide_true, Bool.true_and, if_false]

/-- A pointer reads as it was last written (R22). -/
@[simp] theorem State.ptr_setPtr_same (s : State) (p : Ptr) (v : Word) : (s.setPtr p v).ptr p = v := by
  have h : p.lo ≠ p.hi := by cases p <;> decide
  simp [State.ptr, State.setPtr, State.reg_setReg_other _ _ h, joinBytes_highByte_lowByte]

/-- Writing a pointer changes its two registers alone (R22). -/
theorem State.reg_setPtr_other (s : State) (p : Ptr) (v : Word) {i : Reg} (hlo : i ≠ p.lo) (hhi : i ≠ p.hi) :
    (s.setPtr p v).reg i = s.reg i := by
  simp [State.setPtr, State.reg_setReg_other _ _ hlo, State.reg_setReg_other _ _ hhi]

/-- Writing a register that is no half of a pointer leaves the pointer. -/
theorem State.ptr_setReg_other (s : State) (p : Ptr) (i : Reg) (v : Byte) (h : p.has i = false) :
    (s.setReg i v).ptr p = s.ptr p := by
  simp only [Ptr.has, Bool.or_eq_false_iff, beq_eq_false_iff_ne] at h
  simp [State.ptr, State.reg_setReg_other _ _ (Ne.symm h.1), State.reg_setReg_other _ _ (Ne.symm h.2)]

/-- Where the data space is not small a data pointer is the pair (R110). -/
theorem State.dataPtr_wide {s : State} (p : Ptr) (h : smallDataSpace s.launch.device = false) :
    s.dataPtr p = s.ptr p := by
  simp [State.dataPtr, h]

theorem State.movedPtr_wide {s : State} (p : Ptr) (n : Word) (h : smallDataSpace s.launch.device = false) :
    s.movedPtr p n = s.ptr p + n := by
  simp [State.movedPtr, State.dataPtr, h]

theorem State.setDataPtr_wide {s : State} (p : Ptr) (v : Word) (h : smallDataSpace s.launch.device = false) :
    s.setDataPtr p v = s.setPtr p v := by
  simp [State.setDataPtr, h]

/-- A data pointer that was moved and written back reads as it was moved. -/
@[simp] theorem State.dataPtr_setDataPtr_movedPtr (s : State) (p : Ptr) (n : Word) :
    (s.setDataPtr p (s.movedPtr p n)).dataPtr p = s.movedPtr p n := by
  have hl : ∀ b : Byte, lowByte (b.setWidth 16) = b := by
    intro b
    apply BitVec.eq_of_getLsbD_eq
    intro i hi
    simp [lowByte, hi]
    omega
  cases h : smallDataSpace s.launch.device
  · rw [State.dataPtr_wide _ (by simpa using h), State.setDataPtr_wide _ _ h, State.ptr_setPtr_same]
  · simp [State.dataPtr, State.setDataPtr, State.movedPtr, h, hl]

/-- Writing a data pointer changes its two registers alone, and where the data space is small the low one alone. -/
theorem State.reg_setDataPtr_other (s : State) (p : Ptr) (v : Word) {i : Reg} (hlo : i ≠ p.lo)
    (hhi : i ≠ p.hi ∨ smallDataSpace s.launch.device = true) : (s.setDataPtr p v).reg i = s.reg i := by
  cases h : smallDataSpace s.launch.device
  · rw [State.setDataPtr_wide _ _ h]
    exact State.reg_setPtr_other s p v hlo (hhi.resolve_right (by simp [h]))
  · simp [State.setDataPtr, h, State.reg_setReg_other _ _ hlo]

/-! ## Flags -/

/-- `setBit` writes one bit of a byte. -/
theorem getLsbD_setBit (v : Byte) (b : BitNum) (x : Bool) (i : Nat) (hi : i < 8) :
    (setBit v b x).getLsbD i = if i = b.toNat then x else v.getLsbD i := by
  have hb : b.toNat < 8 := b.isLt
  unfold setBit
  by_cases h : i = b.toNat
  · subst h
    cases x <;> simp [hi]
  · have h' : ¬ (¬ i < b.toNat ∧ i - b.toNat = 0) := by omega
    cases x <;> simp [h, hi] <;> omega

@[simp] theorem State.flag_setFlag_same (s : State) (b : BitNum) (x : Bool) : (s.setFlag b x).flag b = x := by
  have hb : b.toNat < 8 := b.isLt
  show (setBit s.sreg b x).getLsbD b.toNat = x
  rw [getLsbD_setBit _ _ _ _ hb, if_pos rfl]

theorem State.flag_setFlag_other (s : State) {b c : BitNum} (x : Bool) (h : c ≠ b) :
    (s.setFlag b x).flag c = s.flag c := by
  have hc : c.toNat < 8 := c.isLt
  have h' : c.toNat ≠ b.toNat := fun e => h (BitVec.eq_of_toNat_eq e)
  show (setBit s.sreg b x).getLsbD c.toNat = s.sreg.getLsbD c.toNat
  rw [getLsbD_setBit _ _ _ _ hc, if_neg h']

end Sys2Proof.Machine
end

