-- ==== Sys2Proof/Laws/Ops.lean ====
section
/-! SUPPORT. For each shared operation, once, everything it can do: what its next state can be, and what it leaves
unchanged. Later proofs cite these lemmas instead of unfolding the operation. -/

namespace Sys2Proof.Machine

open Config

/-! ## Answers -/

/-- Both answer a next state. -/
theorem andThen_eq_next {α β : Type} (r : Res α) (k : α → Res β) (b : β) :
    andThen r k = .next b ↔ ∃ a, r = .next a ∧ k a = .next b := by
  cases r <;> simp [andThen]

@[simp] theorem andThen_next {α β : Type} (a : α) (k : α → Res β) : andThen (.next a) k = k a := rfl
@[simp] theorem andThen_fault {α β : Type} (f : Fault) (k : α → Res β) : andThen (.fault f) k = .fault f := rfl
@[simp] theorem andThen_refused {α β : Type} (f : Refusal) (k : α → Res β) :
    andThen (.refused f) k = .refused f := rfl

/-- An instruction whose effect answers completes with that effect and its end. -/
theorem finish_eq_next (n : Nat) (r : Res State) (t : State) :
    finish n r = .next t ↔ ∃ u, r = .next u ∧ t = retire n u := by
  simp only [finish, andThen_eq_next]
  constructor
  · rintro ⟨u, h1, h2⟩
    exact ⟨u, h1, (Host.Outcome.next.inj h2).symm⟩
  · rintro ⟨u, h1, rfl⟩
    exact ⟨u, h1, rfl⟩

@[simp] theorem finish_next (n : Nat) (u : State) : finish n (.next u) = .next (retire n u) := rfl
@[simp] theorem finish_fault (n : Nat) (f : Fault) : finish n (.fault f) = .fault f := rfl
@[simp] theorem finish_refused (n : Nat) (f : Refusal) : finish n (.refused f) = .refused f := rfl

/-! ## The I/O space -/

/-- A read of the I/O space changes nothing but the count of free values and the recorded accesses. -/
theorem ioRead_state (s : State) (a : IoAddr) :
    (ioRead s a).2 = { s with draws := (ioRead s a).2.draws, ioEvents := (ioRead s a).2.ioEvents } := by
  unfold ioRead
  split <;> rfl

/-- The recorded accesses after a read: one more where the register is not modelled. -/
theorem ioRead_ioEvents (s : State) (a : IoAddr) :
    (ioRead s a).2.ioEvents =
      if (ioReg s.launch a).recorded then .read a (ioDraw s.draws a) :: s.ioEvents else s.ioEvents := by
  unfold ioRead
  split <;> rename_i h <;> simp [h, IoReg.recorded]

@[simp] theorem ioRead_regs (s : State) (a : IoAddr) : (ioRead s a).2.regs = s.regs := by rw [ioRead_state]
@[simp] theorem ioRead_pc (s : State) (a : IoAddr) : (ioRead s a).2.pc = s.pc := by rw [ioRead_state]
@[simp] theorem ioRead_pcWrapped (s : State) (a : IoAddr) : (ioRead s a).2.pcWrapped = s.pcWrapped := by
  rw [ioRead_state]
@[simp] theorem ioRead_sreg (s : State) (a : IoAddr) : (ioRead s a).2.sreg = s.sreg := by rw [ioRead_state]
@[simp] theorem ioRead_sp (s : State) (a : IoAddr) : (ioRead s a).2.sp = s.sp := by rw [ioRead_state]
@[simp] theorem ioRead_rampz (s : State) (a : IoAddr) : (ioRead s a).2.rampz = s.rampz := by rw [ioRead_state]
@[simp] theorem ioRead_mem (s : State) (a : IoAddr) : (ioRead s a).2.mem = s.mem := by rw [ioRead_state]
@[simp] theorem ioRead_eearh (s : State) (a : IoAddr) : (ioRead s a).2.eearh = s.eearh := by rw [ioRead_state]
@[simp] theorem ioRead_eearl (s : State) (a : IoAddr) : (ioRead s a).2.eearl = s.eearl := by rw [ioRead_state]
@[simp] theorem ioRead_eedr (s : State) (a : IoAddr) : (ioRead s a).2.eedr = s.eedr := by rw [ioRead_state]
@[simp] theorem ioRead_eerie (s : State) (a : IoAddr) : (ioRead s a).2.eerie = s.eerie := by rw [ioRead_state]
@[simp] theorem ioRead_eeWindow (s : State) (a : IoAddr) : (ioRead s a).2.eeWindow = s.eeWindow := by
  rw [ioRead_state]
@[simp] theorem ioRead_eeWrite (s : State) (a : IoAddr) : (ioRead s a).2.eeWrite = s.eeWrite := by rw [ioRead_state]
@[simp] theorem ioRead_mcucr (s : State) (a : IoAddr) : (ioRead s a).2.mcucr = s.mcucr := by rw [ioRead_state]
@[simp] theorem ioRead_spmcr (s : State) (a : IoAddr) : (ioRead s a).2.spmcr = s.spmcr := by rw [ioRead_state]
@[simp] theorem ioRead_spmWindow (s : State) (a : IoAddr) : (ioRead s a).2.spmWindow = s.spmWindow := by
  rw [ioRead_state]
@[simp] theorem ioRead_spmJob (s : State) (a : IoAddr) : (ioRead s a).2.spmJob = s.spmJob := by rw [ioRead_state]
@[simp] theorem ioRead_lockBits (s : State) (a : IoAddr) : (ioRead s a).2.lockBits = s.lockBits := by
  rw [ioRead_state]
@[simp] theorem ioRead_irqFlags (s : State) (a : IoAddr) : (ioRead s a).2.irqFlags = s.irqFlags := by
  rw [ioRead_state]
@[simp] theorem ioRead_irqLevels (s : State) (a : IoAddr) : (ioRead s a).2.irqLevels = s.irqLevels := by
  rw [ioRead_state]
@[simp] theorem ioRead_irqEnables (s : State) (a : IoAddr) : (ioRead s a).2.irqEnables = s.irqEnables := by
  rw [ioRead_state]
@[simp] theorem ioRead_holdoff (s : State) (a : IoAddr) : (ioRead s a).2.holdoff = s.holdoff := by rw [ioRead_state]
@[simp] theorem ioRead_asleep (s : State) (a : IoAddr) : (ioRead s a).2.asleep = s.asleep := by rw [ioRead_state]
@[simp] theorem ioRead_watchdog (s : State) (a : IoAddr) : (ioRead s a).2.watchdog = s.watchdog := by
  rw [ioRead_state]
@[simp] theorem ioRead_agenda (s : State) (a : IoAddr) : (ioRead s a).2.agenda = s.agenda := by rw [ioRead_state]
@[simp] theorem ioRead_launch (s : State) (a : IoAddr) : (ioRead s a).2.launch = s.launch := by rw [ioRead_state]
@[simp] theorem ioRead_reg (s : State) (a : IoAddr) (j : Reg) :
    (ioRead s a).2.reg j = s.reg j := by rw [ioRead_state]; rfl
@[simp] theorem ioRead_ptr (s : State) (a : IoAddr) (p : Ptr) :
    (ioRead s a).2.ptr p = s.ptr p := by rw [ioRead_state]; rfl
@[simp] theorem ioRead_dataPtr (s : State) (a : IoAddr) (p : Ptr) : (ioRead s a).2.dataPtr p = s.dataPtr p := by
  rw [ioRead_state]; rfl

/-- What EERE does, when it does not stop. -/
theorem eepromRead_next {s t : State} (h : eepromRead s = .next t) :
    s.eepromAddr < s.launch.device.eepromBytes ∧ t = { s with eedr := s.mem.byte .eeprom s.eepromAddr } := by
  unfold eepromRead at h
  split at h
  · next hb => exact ⟨hb, (Host.Outcome.next.inj h).symm⟩
  · cases h

/-- What EEWE does with the window open, when it does not stop. -/
theorem eepromWriteStart_next {s t : State} (h : eepromWriteStart s = .next t) :
    s.spmJob = none ∧ s.eepromAddr < s.launch.device.eepromBytes ∧
      t = { s with eeWrite := some { addr := s.eepromAddr, value := s.eedr }, eeWindow := .closed } := by
  unfold eepromWriteStart at h
  split at h
  · cases h
  · next hj =>
    split at h
    · next hb => exact ⟨by simpa using hj, hb, (Host.Outcome.next.inj h).symm⟩
    · cases h

/-- What a write of EECR can do, when it does not stop: EERIE and the window; or besides the EERE read; or besides the
start of a write, which closes the window. -/
theorem eecrWrite_next {s t : State} {v : Byte} (h : eecrWrite s v = .next t) :
    t = { s with eerie := v.getLsbD 3, eeWindow := if v.getLsbD 2 then .armed else .closed } ∨
      (s.eeWrite = none ∧ s.eepromAddr < s.launch.device.eepromBytes ∧
        t = { s with
          eerie := v.getLsbD 3, eeWindow := if v.getLsbD 2 then .armed else .closed,
          eedr := s.mem.byte .eeprom s.eepromAddr }) ∨
      (s.eeWrite = none ∧ s.eepromAddr < s.launch.device.eepromBytes ∧
        t = { s with
          eerie := v.getLsbD 3, eeWindow := .closed,
          eeWrite := some { addr := s.eepromAddr, value := s.eedr } }) := by
  unfold eecrWrite at h
  simp only at h
  split at h
  · cases h
  · split at h
    · split at h
      · cases h
      · next hw => exact .inr (.inl ⟨by simpa using hw, (eepromRead_next h).1, (eepromRead_next h).2⟩)
    · split at h
      · split at h
        · exact .inl (Host.Outcome.next.inj h).symm
        · next hw =>
          split at h
          · split at h
            · cases h
            · next hv => exact .inl (by rw [if_neg hv]; exact (Host.Outcome.next.inj h).symm)
          · exact .inr (.inr ⟨by simpa using hw, (eepromWriteStart_next h).2.1, (eepromWriteStart_next h).2.2⟩)
          · exact .inr (.inr ⟨by simpa using hw, (eepromWriteStart_next h).2.1, (eepromWriteStart_next h).2.2⟩)
          · cases h
      · exact .inl (Host.Outcome.next.inj h).symm

/-- What a write of the I/O space can do, when it does not stop: it changes none of the registers, the pc, the memories,
the SPM operation in progress, the interrupt requests and enables, the sleep state, the watchdog, the agenda and the
launch parameters. -/
theorem ioWrite_next {s t : State} {a : IoAddr} {v : Byte} (h : ioWrite s a v = .next t) :
    t = { s with
      sreg := t.sreg, sp := t.sp, rampz := t.rampz, eearh := t.eearh, eearl := t.eearl, eedr := t.eedr,
      eerie := t.eerie, eeWindow := t.eeWindow, eeWrite := t.eeWrite, mcucr := t.mcucr, spmcr := t.spmcr,
      spmWindow := t.spmWindow, ioEvents := t.ioEvents } := by
  unfold ioWrite at h
  split at h
  case h_8 => rcases eecrWrite_next h with rfl | ⟨_, _, rfl⟩ | ⟨_, _, rfl⟩ <;> rfl
  all_goals (try unfold writeSreg at h)
  all_goals (try unfold eepromRegWrite at h)
  all_goals (try split at h)
  all_goals first | (cases h; done) | skip
  all_goals (have h' := Host.Outcome.next.inj h; subst h')
  all_goals first | rfl | (unfold spmcrWrite; split <;> [rfl; split <;> rfl])

/-! ## The data address space -/

/-- A data read that answers gives the byte of `State.dataByte`, and changes at most the count of free values and the
recorded accesses. -/
theorem memRead_dataByte {s : State} {a : Word} {v : Byte} (h : s.dataByte a = some v) :
    ∃ u, memRead s a = .next (v, u) ∧ u = { s with draws := u.draws, ioEvents := s.eventsAfterRead a } := by
  unfold State.dataByte at h
  unfold memRead State.eventsAfterRead
  split at h <;> rename_i heq <;> simp only [heq]
  · cases h
    exact ⟨s, rfl, rfl⟩
  · cases h
    exact ⟨_, rfl, by rw [← ioRead_ioEvents]; exact ioRead_state _ _⟩
  · simp only [h]
    exact ⟨s, rfl, rfl⟩
  · cases h

/-- When a data read answers, `State.dataByte` is its byte. -/
theorem memRead_next {s u : State} {a : Word} {v : Byte} (h : memRead s a = .next (v, u)) : s.dataByte a = some v := by
  unfold memRead at h
  unfold State.dataByte
  cases hp : dataPlace s.launch.device a <;> simp only [hp] at h ⊢
  · cases h; rfl
  · exact congrArg some (congrArg Prod.fst (Host.Outcome.next.inj h))
  · split at h
    · next hr => cases h; exact hr
    · cases h
  · cases h

/-- What a data write can do, when it does not stop: it writes a register, an I/O register, or one byte of SRAM that the
device has. -/
theorem memWrite_next {s t : State} {a : Word} {v : Byte} (h : memWrite s a v = .next t) :
    (∃ k, dataPlace s.launch.device a = .reg k ∧ t = s.setReg k v) ∨
      (∃ b, dataPlace s.launch.device a = .io b ∧ ioWrite s b v = .next t) ∨
      ∃ b, dataPlace s.launch.device a = .sram b ∧ t = { s with mem := s.mem.write .sram b v } := by
  unfold memWrite at h
  split at h <;> rename_i heq
  · exact .inl ⟨_, heq, (Host.Outcome.next.inj h).symm⟩
  · exact .inr (.inl ⟨_, heq, h⟩)
  · exact .inr (.inr ⟨_, heq, (Host.Outcome.next.inj h).symm⟩)
  · cases h

/-- An SRAM place lies between SRAM_START and RAMEND. -/
theorem dataPlace_sram {d : Device} {a : Word} {b : Nat} (h : dataPlace d a = .sram b) :
    b = a.toNat ∧ d.sramStart ≤ b ∧ b ≤ d.ramEnd := by
  unfold dataPlace at h
  simp only at h
  split at h
  · split at h <;> cases h
  · split at h
    · cases h
    · split at h
      · next hr => cases h; exact ⟨rfl, hr.1, hr.2⟩
      · cases h

/-- A register place is the data address of a register that exists, on a device that has registers in its data space. -/
theorem dataPlace_reg {d : Device} {a : Word} {k : Reg} (h : dataPlace d a = .reg k) :
    d.regsInDataSpace = true ∧ a = k.setWidth 16 ∧ d.firstReg ≤ k.toNat := by
  unfold dataPlace at h
  simp only at h
  split at h
  · next hr =>
    split at h
    · next hf =>
      cases h
      have ha : (BitVec.ofNat 5 a.toNat).toNat = a.toNat := by
        rw [BitVec.toNat_ofNat]
        have := hr.2
        omega
      refine ⟨hr.1, BitVec.eq_of_toNat_eq ?_, by rw [ha]; exact hf⟩
      rw [BitVec.toNat_setWidth, ha]
      have := a.isLt
      omega
    · cases h
  · split at h
    · cases h
    · split at h <;> cases h

/-! ## Loads and stores -/

/-- What a load can do, when it does not stop. -/
theorem loadAt_next {d : Reg} {a : Word} {s t : State} (h : loadAt d a s = .next t) :
    ∃ (v : Byte) (u : State), s.dataByte a = some v ∧ u = { s with draws := u.draws, ioEvents := s.eventsAfterRead a } ∧
      t = u.setReg d v := by
  unfold loadAt at h
  obtain ⟨⟨v, u⟩, h1, h2⟩ := (andThen_eq_next _ _ _).1 h
  obtain ⟨u', h3, h4⟩ := memRead_dataByte (memRead_next h1)
  have : u = u' := by rw [h1] at h3; cases h3; rfl
  subst this
  exact ⟨v, u, memRead_next h1, h4, (Host.Outcome.next.inj h2).symm⟩

/-- A device turn between the two accesses of a read-modify-write does nothing where the agenda has none. -/
theorem midTurn_none {s : State} (h : s.noMidTurn) : midTurn s = s := by
  unfold midTurn
  split
  · next e rest heq => exact absurd heq (h e rest)
  · rfl

/-- What a device's turn leaves unchanged. -/
theorem deviceEvent_state (e : DeviceEvent) (s : State) :
    deviceEvent e s = { s with
      mem := (deviceEvent e s).mem, eeWrite := (deviceEvent e s).eeWrite, spmcr := (deviceEvent e s).spmcr,
      spmWindow := (deviceEvent e s).spmWindow, spmJob := (deviceEvent e s).spmJob,
      irqFlags := (deviceEvent e s).irqFlags, irqLevels := (deviceEvent e s).irqLevels,
      irqEnables := (deviceEvent e s).irqEnables, watchdog := (deviceEvent e s).watchdog } := by
  cases e <;> simp only [deviceEvent]
  case eepromDone => unfold eepromFinish; split <;> rfl
  case spmDone =>
    unfold spmFinish
    split
    · next j _ => cases j <;> rfl
    · rfl

/-- What SPM's operation leaves unchanged: it writes the memories, SPMCR, its window, the operation in progress and the
lock bits. -/
theorem spmOperation_next {s t : State} (h : spmOperation s = .next t) :
    t = { s with
      mem := t.mem, spmcr := t.spmcr, spmWindow := t.spmWindow, spmJob := t.spmJob, lockBits := t.lockBits } := by
  have hact : ∀ u : State, spmAct u = { u with
      mem := (spmAct u).mem, spmcr := (spmAct u).spmcr, spmWindow := (spmAct u).spmWindow,
      spmJob := (spmAct u).spmJob, lockBits := (spmAct u).lockBits } := by
    intro u
    unfold spmAct startJob
    repeat' split
    all_goals rfl
  unfold spmOperation at h
  split at h
  · cases h
  · split at h
    · cases h; rfl
    · split at h
      · cases h; rfl
      · cases h; exact hact s
      · cases h; exact hact s
      · have h' := Host.Outcome.next.inj h
        subst h'
        split
        · exact hact s
        · rfl

/-! ## Memory stays canonical -/

theorem memAfterReset_wf (c : ResetCause) (s : State) (h : s.mem.wf = true) : (memAfterReset c s).wf = true := by
  unfold memAfterReset
  refine Memory.wf_clear _ _ ?_
  have h1 : (if c = ResetCause.powerOn then s.mem.setCells .sram [] else s.mem).wf = true := by
    split
    · exact Memory.wf_clear _ _ h
    · exact h
  have h2 : (match s.eeWrite with
      | some w => (if c = ResetCause.powerOn then s.mem.setCells .sram [] else s.mem).write .eeprom w.addr
          (interruptedByte s.draws)
      | none => if c = ResetCause.powerOn then s.mem.setCells .sram [] else s.mem).wf = true := by
    split
    · exact Memory.wf_write _ _ _ _ h1
    · exact h1
  split
  · exact Memory.wf_writeRun _ _ _ _ _ h2
  · exact Memory.wf_writeRun _ _ _ _ _ h2
  · exact h2

theorem finishJob_wf (j : SpmJob) (s : State) (h : s.mem.wf = true) : (finishJob j s).mem.wf = true := by
  cases j with
  | erase base => exact Memory.wf_writeRun _ _ _ _ _ h
  | write base => exact Memory.wf_clear _ _ (Memory.wf_writeRun _ _ _ _ _ h)

theorem spmAct_wf (s : State) (h : s.mem.wf = true) : (spmAct s).mem.wf = true := by
  unfold spmAct startJob
  repeat' split
  · exact Memory.wf_write _ _ _ _ (Memory.wf_write _ _ _ _ h)
  · exact finishJob_wf _ s h
  · exact h
  · exact finishJob_wf _ s h
  · exact h
  · exact h
  · exact Memory.wf_clear _ _ h
  · exact h

theorem spmOperation_wf {s t : State} (h : s.mem.wf = true) (hn : spmOperation s = .next t) : t.mem.wf = true := by
  unfold spmOperation at hn
  repeat' split at hn
  all_goals first
    | (cases hn; done)
    | (cases hn; exact h)
    | (cases hn; exact spmAct_wf s h)

theorem deviceEvent_wf (e : DeviceEvent) (s : State) (h : s.mem.wf = true) : (deviceEvent e s).mem.wf = true := by
  cases e <;> simp only [deviceEvent]
  case eepromDone =>
    unfold eepromFinish
    split
    · exact Memory.wf_write _ _ _ _ h
    · exact h
  case spmDone =>
    unfold spmFinish
    split
    · exact finishJob_wf _ s h
    · exact h
  all_goals exact h

theorem memWrite_wf {s t : State} {a : Word} {v : Byte} (h : s.mem.wf = true) (hn : memWrite s a v = .next t) :
    t.mem.wf = true := by
  rcases memWrite_next hn with ⟨k, _, rfl⟩ | ⟨b, _, hw⟩ | ⟨b, _, rfl⟩
  · exact h
  · rw [ioWrite_next hw]; exact h
  · exact Memory.wf_write _ _ _ _ h

/-! ## Interrupts -/

/-- What the entry of an interrupt can do, when it does not stop: two pushes from the state with I cleared and the timed
unlock bits over, then the jump to the vector. -/
theorem enterInterrupt_next {v : Irq} {s t : State} (h : enterInterrupt v s = .next t) :
    ∃ u1 u2, memWrite s.enterHandler s.sp (lowByte s.pc) = .next u1 ∧
      memWrite (u1.setSp (u1.sp - 1)) (u1.setSp (u1.sp - 1)).sp (highByte s.pc) = .next u2 ∧
      t = (u2.setSp (u2.sp - 1)).atVector v := by
  unfold enterInterrupt pushByte at h
  obtain ⟨w1, h1, h⟩ := (andThen_eq_next _ _ _).1 h
  obtain ⟨w2, h2, h⟩ := (andThen_eq_next _ _ _).1 h
  obtain ⟨u1, h3, h4⟩ := (andThen_eq_next _ _ _).1 h1
  obtain ⟨u2, h5, h6⟩ := (andThen_eq_next _ _ _).1 h2
  cases h4
  cases h6
  exact ⟨u1, u2, h3, h5, (Host.Outcome.next.inj h).symm⟩

/-! ## Steps -/

/-- What a turn of the interrupt agent can be, when it answers: the entry of the interrupt that can be taken, or
nothing. -/
theorem deliver_next {s t : State} (h : deliver s = .next t) :
    (∃ v, s.takeable = some v ∧ enterInterrupt v s = .next t) ∨ (s.takeable = none ∧ t = s) := by
  unfold deliver at h
  split at h
  · next v hv => exact .inl ⟨v, hv, h⟩
  · next hv => exact .inr ⟨hv, (Host.Outcome.next.inj h).symm⟩

/-- What a step can be, when it answers: the turn of the core, the entry of an interrupt, the turn of the interrupt
agent or of a device, or a reset. -/
theorem step_next {s t : State} (h : step s = .next t) :
    s.atEnd = false ∧
      ((∃ v, s.agenda = [] ∧ s.takeable = some v ∧ enterInterrupt v s = .next t) ∨
        (s.agenda = [] ∧ s.takeable = none ∧ coreTurn s = .next t) ∨
        (∃ rest, s.agenda = .core :: rest ∧ coreTurn { s with agenda := rest } = .next t) ∨
        (∃ rest, s.agenda = .interrupt :: rest ∧ deliver { s with agenda := rest } = .next t) ∨
        (∃ e rest, (s.agenda = .device e :: rest ∨ s.agenda = .mid e :: rest) ∧
          t = deviceEvent e { s with agenda := rest }) ∨
        ∃ c rest, s.agenda = .reset c :: rest ∧ t = takeReset c { s with agenda := rest }) := by
  unfold step at h
  split at h
  · cases h
  · next hend =>
    refine ⟨by simpa using hend, ?_⟩
    split at h
    · next ha =>
      unfold boundary at h
      split at h
      · next v hv => exact .inl ⟨v, ha, hv, h⟩
      · next hv => exact .inr (.inl ⟨ha, hv, h⟩)
    · next rest ha => exact .inr (.inr (.inl ⟨rest, ha, h⟩))
    · next rest ha => exact .inr (.inr (.inr (.inl ⟨rest, ha, h⟩)))
    · next e rest ha => exact .inr (.inr (.inr (.inr (.inl ⟨e, rest, .inl ha, (Host.Outcome.next.inj h).symm⟩))))
    · next e rest ha => exact .inr (.inr (.inr (.inr (.inl ⟨e, rest, .inr ha, (Host.Outcome.next.inj h).symm⟩))))
    · next c rest ha => exact .inr (.inr (.inr (.inr (.inr ⟨c, rest, ha, (Host.Outcome.next.inj h).symm⟩))))

/-- What the turn of the core can be, when it answers: nothing while asleep, else the fetched instruction. -/
theorem coreTurn_next {s t : State} (h : coreTurn s = .next t) :
    (s.asleep = true ∧ t = s) ∨ (s.asleep = false ∧ ∃ i, fetchInstr s = .next i ∧ exec i s = .next t) := by
  unfold coreTurn at h
  split at h
  · next ha => exact .inl ⟨ha, (Host.Outcome.next.inj h).symm⟩
  · next ha => exact .inr ⟨by simpa using ha, (andThen_eq_next _ _ _).1 h⟩

end Sys2Proof.Machine
end

