-- ==== Sys2Proof/Laws/PerInstr.lean ====
section
/-! SUPPORT. What holds of every instruction as words, one lemma per constructor. -/

namespace Sys2Proof.Laws.EncodingLength

/-- The encoding has as many words as the instruction occupies (R81): what the pc advances by is what was encoded. -/
def Statement (i : Instr) : Prop := (encode i).length = i.words

theorem mov (d : Reg) (r : Reg) : Statement (.mov d r) := rfl
theorem movw (d : Reg) (r : Reg) : Statement (.movw d r) := rfl
theorem ldi (d : Reg) (k : Byte) : Statement (.ldi d k) := rfl
theorem lds (d : Reg) (k : Word) : Statement (.lds d k) := rfl
theorem lds16 (d : Reg) (k : Byte) : Statement (.lds16 d k) := rfl
theorem ldX (d : Reg) : Statement (.ldX d) := rfl
theorem ldXInc (d : Reg) : Statement (.ldXInc d) := rfl
theorem ldXDec (d : Reg) : Statement (.ldXDec d) := rfl
theorem ldY (d : Reg) : Statement (.ldY d) := rfl
theorem ldYInc (d : Reg) : Statement (.ldYInc d) := rfl
theorem ldYDec (d : Reg) : Statement (.ldYDec d) := rfl
theorem ldZ (d : Reg) : Statement (.ldZ d) := rfl
theorem ldZInc (d : Reg) : Statement (.ldZInc d) := rfl
theorem ldZDec (d : Reg) : Statement (.ldZDec d) := rfl
theorem lddY (d : Reg) (q : Disp) : Statement (.lddY d q) := rfl
theorem lddZ (d : Reg) (q : Disp) : Statement (.lddZ d q) := rfl
theorem sts (k : Word) (r : Reg) : Statement (.sts k r) := rfl
theorem sts16 (k : Byte) (r : Reg) : Statement (.sts16 k r) := rfl
theorem stX (r : Reg) : Statement (.stX r) := rfl
theorem stXInc (r : Reg) : Statement (.stXInc r) := rfl
theorem stXDec (r : Reg) : Statement (.stXDec r) := rfl
theorem stY (r : Reg) : Statement (.stY r) := rfl
theorem stYInc (r : Reg) : Statement (.stYInc r) := rfl
theorem stYDec (r : Reg) : Statement (.stYDec r) := rfl
theorem stdY (q : Disp) (r : Reg) : Statement (.stdY q r) := rfl
theorem stZ (r : Reg) : Statement (.stZ r) := rfl
theorem stZInc (r : Reg) : Statement (.stZInc r) := rfl
theorem stZDec (r : Reg) : Statement (.stZDec r) := rfl
theorem stdZ (q : Disp) (r : Reg) : Statement (.stdZ q r) := rfl
theorem lpm : Statement .lpm := rfl
theorem lpmZ (d : Reg) : Statement (.lpmZ d) := rfl
theorem lpmZInc (d : Reg) : Statement (.lpmZInc d) := rfl
theorem elpm : Statement .elpm := rfl
theorem elpmZ (d : Reg) : Statement (.elpmZ d) := rfl
theorem elpmZInc (d : Reg) : Statement (.elpmZInc d) := rfl
theorem spm : Statement .spm := rfl
theorem spmZInc : Statement .spmZInc := rfl
theorem inp (d : Reg) (a : IoAddr) : Statement (.inp d a) := rfl
theorem out (a : IoAddr) (r : Reg) : Statement (.out a r) := rfl
theorem push (r : Reg) : Statement (.push r) := rfl
theorem pop (d : Reg) : Statement (.pop d) := rfl
theorem xch (d : Reg) : Statement (.xch d) := rfl
theorem lsl (d : Reg) : Statement (.lsl d) := rfl
theorem lsr (d : Reg) : Statement (.lsr d) := rfl
theorem rol (d : Reg) : Statement (.rol d) := rfl
theorem ror (d : Reg) : Statement (.ror d) := rfl
theorem asr (d : Reg) : Statement (.asr d) := rfl
theorem swap (d : Reg) : Statement (.swap d) := rfl
theorem bset (s : BitNum) : Statement (.bset s) := rfl
theorem bclr (s : BitNum) : Statement (.bclr s) := rfl
theorem sbi (a : IoAddr) (b : BitNum) : Statement (.sbi a b) := rfl
theorem cbi (a : IoAddr) (b : BitNum) : Statement (.cbi a b) := rfl
theorem bst (r : Reg) (b : BitNum) : Statement (.bst r b) := rfl
theorem bld (d : Reg) (b : BitNum) : Statement (.bld d b) := rfl
theorem sec : Statement .sec := rfl
theorem clc : Statement .clc := rfl
theorem sen : Statement .sen := rfl
theorem cln : Statement .cln := rfl
theorem sez : Statement .sez := rfl
theorem clz : Statement .clz := rfl
theorem sei : Statement .sei := rfl
theorem cli : Statement .cli := rfl
theorem ses : Statement .ses := rfl
theorem cls : Statement .cls := rfl
theorem sev : Statement .sev := rfl
theorem clv : Statement .clv := rfl
theorem setT : Statement .setT := rfl
theorem clt : Statement .clt := rfl
theorem seh : Statement .seh := rfl
theorem clh : Statement .clh := rfl
theorem brk : Statement .brk := rfl
theorem nop : Statement .nop := rfl
theorem sleep : Statement .sleep := rfl
theorem wdr : Statement .wdr := rfl

end Sys2Proof.Laws.EncodingLength
end

