-- ==== Sys2Proof/Tests/Slice0.lean ====
section
/-! SUPPORT. The model's own tests: what `WellFormed` refuses, the words of 95_test_vectors.md part 2.1 and 2.2 through
the decoder, one step of each instruction on the vectors of parts 2.3 to 2.15, and for every obligation with hypotheses
a state and operands that meet them. Every expected value is the spec's, or worked out by hand from its rules. -/

namespace Sys2Proof.Tests

open Config Machine

/-! ## What `WellFormed` refuses -/

theorem test_wf_ldi_low_register : WellFormed .atmega32 (.ldi 15 0) = false := by decide
theorem test_wf_ldi_first_register : WellFormed .atmega32 (.ldi 16 0) = true := by decide
theorem test_wf_movw_odd_destination : WellFormed .atmega32 (.movw 1 0) = false := by decide
theorem test_wf_movw_odd_source : WellFormed .atmega32 (.movw 0 31) = false := by decide
theorem test_wf_sbi_high_address : WellFormed .atmega32 (.sbi 32 0) = false := by decide
theorem test_wf_cbi_high_address : WellFormed .atmega32 (.cbi 63 0) = false := by decide
theorem test_wf_lds16_low_address : WellFormed .reducedCore (.lds16 16 0x3F) = false := by decide
theorem test_wf_sts16_high_address : WellFormed .reducedCore (.sts16 0xC0 16) = false := by decide
theorem test_wf_lds16_absent : WellFormed .atmega32 (.lds16 16 0x40) = false := by decide
theorem test_wf_lds_absent : WellFormed .reducedCore (.lds 16 0x40) = false := by decide
theorem test_wf_elpm_absent : WellFormed .atmega32 .elpm = false := by decide
theorem test_wf_xch_absent : WellFormed .atmega32 (.xch 0) = false := by decide
theorem test_wf_spmz_absent : WellFormed .atmega32 .spmZInc = false := by decide
theorem test_wf_low_register_absent : WellFormed .reducedCore (.mov 15 16) = false := by decide

/-! ## Decoding the words of the spec -/

/-- The words decode to the instruction, and encode from it. -/
def decodes (f : Features) (ws : List Word) (i : Instr) : Bool :=
  decode f (bytesOf ws) == .instr i [] && encode i == ws

/-- The word is none of the device's forms. -/
def refuses (f : Features) (x : Word) : Bool := decode f (bytesOf [x]) == .notInScope x

theorem test_decode_copies :
    decodes .atmega32 [0x2D00] (.mov 16 0) = true ∧
    decodes .atmega32 [0x2FFF] (.mov 31 31) = true ∧
    decodes .atmega32 [0x2C10] (.mov 1 0) = true ∧
    decodes .atmega32 [0x01CF] (.movw 24 30) = true ∧
    decodes .atmega32 [0x01FE] (.movw 30 28) = true ∧
    decodes .atmega32 [0xEA05] (.ldi 16 0xA5) = true ∧
    decodes .atmega32 [0xEFFF] (.ldi 31 0xFF) = true := by decide

theorem test_decode_loads :
    decodes .atmega32 [0x9020, 0x0060] (.lds 2 0x60) = true ∧
    decodes .atmega32 [0x900C] (.ldX 0) = true ∧
    decodes .atmega32 [0x901D] (.ldXInc 1) = true ∧
    decodes .atmega32 [0x912E] (.ldXDec 18) = true ∧
    decodes .atmega32 [0x8048] (.ldY 4) = true ∧
    decodes .atmega32 [0x9059] (.ldYInc 5) = true ∧
    decodes .atmega32 [0x906A] (.ldYDec 6) = true ∧
    decodes .atmega32 [0x8070] (.ldZ 7) = true ∧
    decodes .atmega32 [0x9081] (.ldZInc 8) = true ∧
    decodes .atmega32 [0x9092] (.ldZDec 9) = true ∧
    decodes .atmega32 [0xACAF] (.lddY 10 63) = true ∧
    decodes .atmega32 [0xA0B0] (.lddZ 11 32) = true := by decide

theorem test_decode_stores :
    decodes .atmega32 [0x9230, 0x085F] (.sts 0x85F 3) = true ∧
    decodes .atmega32 [0x920C] (.stX 0) = true ∧
    decodes .atmega32 [0x930D] (.stXInc 16) = true ∧
    decodes .atmega32 [0x931E] (.stXDec 17) = true ∧
    decodes .atmega32 [0x8248] (.stY 4) = true ∧
    decodes .atmega32 [0x9259] (.stYInc 5) = true ∧
    decodes .atmega32 [0x926A] (.stYDec 6) = true ∧
    decodes .atmega32 [0xAEAF] (.stdY 63 10) = true ∧
    decodes .atmega32 [0x8270] (.stZ 7) = true ∧
    decodes .atmega32 [0x9281] (.stZInc 8) = true ∧
    decodes .atmega32 [0x9292] (.stZDec 9) = true ∧
    decodes .atmega32 [0xA2B0] (.stdZ 32 11) = true := by decide

theorem test_decode_short_direct :
    decodes .reducedCore [0xA100] (.lds16 16 0x40) = true ∧
    decodes .reducedCore [0xA61F] (.lds16 17 0xBF) = true ∧
    decodes .reducedCore [0xA010] (.lds16 17 0x80) = true ∧
    decodes .reducedCore [0xA900] (.sts16 0x40 16) = true ∧
    decodes .reducedCore [0xAA4A] (.sts16 0x9A 20) = true := by decide

theorem test_decode_program_memory :
    decodes .extended [0x95C8] (.lpm) = true ∧
    decodes .extended [0x9104] (.lpmZ 16) = true ∧
    decodes .extended [0x9115] (.lpmZInc 17) = true ∧
    decodes .extended [0x95D8] (.elpm) = true ∧
    decodes .extended [0x9106] (.elpmZ 16) = true ∧
    decodes .extended [0x9117] (.elpmZInc 17) = true ∧
    decodes .extended [0x95E8] (.spm) = true ∧
    decodes .extended [0x95F8] (.spmZInc) = true := by decide

theorem test_decode_io_and_stack :
    decodes .extended [0xB71F] (.inp 17 0x3F) = true ∧
    decodes .extended [0xB20D] (.inp 0 0x1D) = true ∧
    decodes .extended [0xBF0D] (.out 0x3D 16) = true ∧
    decodes .extended [0xBB28] (.out 0x18 18) = true ∧
    decodes .extended [0x931F] (.push 17) = true ∧
    decodes .extended [0x912F] (.pop 18) = true ∧
    decodes .extended [0x9304] (.xch 16) = true := by decide

theorem test_decode_shifts :
    decodes .atmega32 [0x0F88] (.lsl 24) = true ∧
    decodes .atmega32 [0x9506] (.lsr 16) = true ∧
    decodes .atmega32 [0x1F99] (.rol 25) = true ∧
    decodes .atmega32 [0x9507] (.ror 16) = true ∧
    decodes .atmega32 [0x9515] (.asr 17) = true ∧
    decodes .atmega32 [0x9502] (.swap 16) = true := by decide

theorem test_decode_bits :
    decodes .atmega32 [0x9AC3] (.sbi 0x18 3) = true ∧
    decodes .atmega32 [0x98C3] (.cbi 0x18 3) = true ∧
    decodes .atmega32 [0x98FF] (.cbi 0x1F 7) = true ∧
    decodes .atmega32 [0xFB07] (.bst 16 7) = true ∧
    decodes .atmega32 [0xF910] (.bld 17 0) = true := by decide

theorem test_decode_set_flags :
    decodes .atmega32 [0x9408] (.sec) = true ∧
    decodes .atmega32 [0x9418] (.sez) = true ∧
    decodes .atmega32 [0x9428] (.sen) = true ∧
    decodes .atmega32 [0x9438] (.sev) = true ∧
    decodes .atmega32 [0x9448] (.ses) = true ∧
    decodes .atmega32 [0x9458] (.seh) = true ∧
    decodes .atmega32 [0x9468] (.setT) = true ∧
    decodes .atmega32 [0x9478] (.sei) = true := by decide

theorem test_decode_clear_flags :
    decodes .atmega32 [0x9488] (.clc) = true ∧
    decodes .atmega32 [0x9498] (.clz) = true ∧
    decodes .atmega32 [0x94A8] (.cln) = true ∧
    decodes .atmega32 [0x94B8] (.clv) = true ∧
    decodes .atmega32 [0x94C8] (.cls) = true ∧
    decodes .atmega32 [0x94D8] (.clh) = true ∧
    decodes .atmega32 [0x94E8] (.clt) = true ∧
    decodes .atmega32 [0x94F8] (.cli) = true := by decide

theorem test_decode_control :
    decodes .atmega32 [0x9598] (.brk) = true ∧
    decodes .atmega32 [0x0000] (.nop) = true ∧
    decodes .atmega32 [0x9588] (.sleep) = true ∧
    decodes .atmega32 [0x95A8] (.wdr) = true := by decide

/-- Rows 49 and 50: the words of BSET 6 and BCLR 0, which decode under the names SET and CLC (R98, R102). -/
theorem test_decode_bset_bclr :
    encode (.bset 6) = [0x9468] ∧ encode (.bclr 0) = [0x9488] ∧ Instr.canonical (.bset 6) = .setT ∧
      Instr.canonical (.bclr 0) = .clc := by decide

theorem test_decode_refused_words :
    [0x0F89, 0x1F98, 0x0C01, 0x2400, 0x9508, 0x9518, 0x940C, 0xCFFF, 0xF7F1, 0x9503, 0x9500, 0x9003, 0x9205, 0xFB08, 0x95D8, 0x9304, 0x95F8].all (refuses .atmega32) = true := by decide

theorem test_table_words :
    decodeTableWord 16 0x2D00 = some (.mov 16 0) ∧ decodeTableWord 16 0x9304 = some (.xch 16) ∧
      decodeTableWord 32 0x90200060 = some (.lds 2 0x60) ∧ decodeTableWord 16 0x9508 = none := by decide

/-! ## One step of each instruction -/

/-- What an instruction leaves in a part of the state, if it completes. -/
def part {α : Type} (f : State → α) : Host.Outcome State Fault Refusal → Option α
  | .next t => some (f t)
  | .fault _ | .refused _ => none

/-- The fault an instruction ends in. -/
def faultOf : Host.Outcome State Fault Refusal → Option Fault
  | .fault e => some e
  | .next _ | .refused _ => none

/-- The refusal an instruction ends in. -/
def refusalOf : Host.Outcome State Fault Refusal → Option Refusal
  | .refused e => some e
  | .next _ | .fault _ => none

/-- Reset, with one register set. -/
def withReg (i : Reg) (v : Byte) : State := State.reset.setReg i v

/-- Reset, with a pointer and one byte of SRAM set. -/
def withPtr (p : Ptr) (a : Word) (b : Nat) (v : Byte) : State :=
  { State.reset.setPtr p a with mem := State.reset.mem.write .sram b v }

/-- Reset, with a pointer and a register set. -/
def withPtrReg (p : Ptr) (a : Word) (i : Reg) (v : Byte) : State := (State.reset.setPtr p a).setReg i v

/-- Reset, with Z and one word of program memory set. -/
def withProg (z : Word) (wa : Nat) (x : Word) : State :=
  { State.reset.setPtr .Z z with
    mem := (State.reset.mem.write .flash (2 * wa) (lowByte x)).write .flash (2 * wa + 1) (highByte x) }

/-- Reset, with SREG set. -/
def withSreg (v : Byte) : State := { State.reset with sreg := v }

/-- Reset, with SP and one register set. -/
def withSp (a : Word) (i : Reg) (v : Byte) : State := { withReg i v with sp := a }

theorem test_mov :
    part (fun t => (t.reg 16, t.sreg, t.pc)) (exec (.mov 16 0) (withReg 0 0x5A)) = some (0x5A, 0x00, 1) := by decide
theorem test_movw :
    part (fun t => (t.reg 24, t.reg 25)) (exec (.movw 24 30) (State.reset.setPtr .Z 0x1234)) = some (0x34, 0x12) := by decide
theorem test_ldi :
    part (fun t => (t.reg 16, t.sreg)) (exec (.ldi 16 0x00) (withReg 16 0x11)) = some (0x00, 0x00) := by decide
theorem test_lds :
    part (fun t => (t.reg 2, t.pc)) (exec (.lds 2 0x0060) (withPtr .X 0 0x60 0x77)) = some (0x77, 2) := by decide
theorem test_lds_refused :
    refusalOf (exec (.lds 2 0x0860) State.reset) = some (.unimplementedDataAddress 0x860) := by decide
theorem test_lds16 :
    part (fun t => (t.reg 16, t.pc)) (exec (.lds16 16 0x80) (withPtr .X 0 0x80 0x77)) = some (0x77, 1) := by decide
theorem test_ldX :
    part (fun t => (t.reg 0, t.ptr .X)) (exec (.ldX 0) (withPtr .X 0x0100 0x0100 0xAB)) = some (0xAB, 0x0100) := by decide
theorem test_ldXInc :
    part (fun t => (t.reg 1, t.ptr .X)) (exec (.ldXInc 1) (withPtr .X 0x00FF 0x00FF 0xCD)) = some (0xCD, 0x0100) := by decide
theorem test_ldXDec :
    part (fun t => (t.reg 18, t.ptr .X)) (exec (.ldXDec 18) (withPtr .X 0x0100 0x00FF 0xEE)) = some (0xEE, 0x00FF) := by decide
theorem test_ldXInc_undefined :
    faultOf (exec (.ldXInc 5) (withPtr .X 0x001A 0x100 0)) = some .undefinedOperandCombination := by decide
theorem test_ldY :
    part (fun t => (t.reg 4, t.ptr .Y)) (exec (.ldY 4) (withPtr .Y 0x0200 0x0200 0x44)) = some (0x44, 0x0200) := by decide
theorem test_ldYInc :
    part (fun t => (t.reg 5, t.ptr .Y)) (exec (.ldYInc 5) (withPtr .Y 0x02FF 0x02FF 0x55)) = some (0x55, 0x0300) := by decide
theorem test_ldYDec :
    part (fun t => (t.reg 6, t.ptr .Y)) (exec (.ldYDec 6) (withPtr .Y 0x0300 0x02FF 0x66)) = some (0x66, 0x02FF) := by decide
theorem test_ldZ :
    part (fun t => (t.reg 7, t.ptr .Z)) (exec (.ldZ 7) (withPtr .Z 0x0060 0x0060 0x70)) = some (0x70, 0x0060) := by decide
theorem test_ldZ_own_register :
    part (fun t => t.reg 7) (exec (.ldZ 7) (State.reset.setPtr .Z 0x001E)) = some 0x1E := by decide
theorem test_ldZInc :
    part (fun t => (t.reg 8, t.ptr .Z)) (exec (.ldZInc 8) (withPtr .Z 0x085F 0x085F 0x81)) = some (0x81, 0x0860) := by decide
theorem test_ldZDec :
    part (fun t => (t.reg 9, t.ptr .Z)) (exec (.ldZDec 9) (withPtr .Z 0x0061 0x0060 0x92)) = some (0x92, 0x0060) := by decide
theorem test_lddY :
    part (fun t => (t.reg 10, t.ptr .Y)) (exec (.lddY 10 63) (withPtr .Y 0x0100 0x013F 0xA1)) = some (0xA1, 0x0100) := by decide
theorem test_lddZ :
    part (fun t => (t.reg 11, t.ptr .Z)) (exec (.lddZ 11 32) (withPtr .Z 0x0100 0x0120 0xA1)) = some (0xA1, 0x0100) := by decide
theorem test_sts :
    part (fun t => (t.mem.read .sram 0x85F, t.pc)) (exec (.sts 0x085F 3) (withReg 3 0x33)) = some (some 0x33, 2) := by decide
theorem test_sts_sreg :
    part (fun t => t.sreg) (exec (.sts 0x005F 3) (withReg 3 0x41)) = some 0x41 := by decide
theorem test_sts16 :
    part (fun t => (t.mem.read .sram 0x9A, t.pc)) (exec (.sts16 0x9A 20) (withReg 20 0x33)) = some (some 0x33, 1) := by decide
theorem test_stX :
    part (fun t => (t.mem.read .sram 0x100, t.ptr .X)) (exec (.stX 0) (withPtrReg .X 0x0100 0 0x10)) =
      some (some 0x10, 0x0100) := by decide
theorem test_stX_own_pointer :
    part (fun t => t.ptr .X) (exec (.stX 5) (withPtrReg .X 0x001A 5 0x34)) = some 0x0034 := by decide
theorem test_stXInc :
    part (fun t => (t.mem.read .sram 0x1FF, t.ptr .X)) (exec (.stXInc 16) (withPtrReg .X 0x01FF 16 0x16)) =
      some (some 0x16, 0x0200) := by decide
theorem test_stXDec :
    part (fun t => (t.mem.read .sram 0xFF, t.ptr .X)) (exec (.stXDec 17) (withPtrReg .X 0x0100 17 0x17)) =
      some (some 0x17, 0x00FF) := by decide
theorem test_stY :
    part (fun t => (t.mem.read .sram 0x200, t.ptr .Y)) (exec (.stY 4) (withPtrReg .Y 0x0200 4 0x04)) =
      some (some 0x04, 0x0200) := by decide
theorem test_stYInc :
    part (fun t => (t.mem.read .sram 0x200, t.ptr .Y)) (exec (.stYInc 5) (withPtrReg .Y 0x0200 5 0x05)) =
      some (some 0x05, 0x0201) := by decide
theorem test_stYDec :
    part (fun t => (t.mem.read .sram 0x1FF, t.ptr .Y)) (exec (.stYDec 6) (withPtrReg .Y 0x0200 6 0x06)) =
      some (some 0x06, 0x01FF) := by decide
theorem test_stdY :
    part (fun t => (t.mem.read .sram 0x13F, t.ptr .Y)) (exec (.stdY 63 10) (withPtrReg .Y 0x0100 10 0x0A)) =
      some (some 0x0A, 0x0100) := by decide
theorem test_stZ :
    part (fun t => (t.mem.read .sram 0x300, t.ptr .Z)) (exec (.stZ 7) (withPtrReg .Z 0x0300 7 0x07)) =
      some (some 0x07, 0x0300) := by decide
theorem test_stZInc :
    part (fun t => (t.mem.read .sram 0x300, t.ptr .Z)) (exec (.stZInc 8) (withPtrReg .Z 0x0300 8 0x08)) =
      some (some 0x08, 0x0301) := by decide
theorem test_stZDec :
    part (fun t => (t.mem.read .sram 0x2FF, t.ptr .Z)) (exec (.stZDec 9) (withPtrReg .Z 0x0300 9 0x09)) =
      some (some 0x09, 0x02FF) := by decide
theorem test_stZDec_undefined :
    faultOf (exec (.stZDec 31) State.reset) = some .undefinedOperandCombination := by decide
theorem test_stdZ :
    part (fun t => (t.mem.read .sram 0x320, t.ptr .Z)) (exec (.stdZ 32 11) (withPtrReg .Z 0x0300 11 0x0B)) =
      some (some 0x0B, 0x0300) := by decide
theorem test_lpm :
    part (fun t => t.reg 0) (exec .lpm (withProg 0x0011 8 0xBEEF)) = some 0xBE := by decide
theorem test_lpmZ :
    part (fun t => (t.reg 16, t.ptr .Z)) (exec (.lpmZ 16) (withProg 0x0010 8 0xBEEF)) = some (0xEF, 0x0010) := by decide
theorem test_lpmZInc :
    part (fun t => (t.reg 17, t.ptr .Z)) (exec (.lpmZInc 17) (withProg 0x7FFF 0x3FFF 0xC3D4)) = some (0xC3, 0x8000) := by decide
theorem test_lpmZ_refused :
    refusalOf (exec (.lpmZ 16) (State.reset.setPtr .Z 0x8000)) = some (.unimplementedProgramAddress 0x8000) := by decide

/-- A device with RAMPZ and 65536 words of program memory. -/
def bigDevice : Device :=
  { Device.atmega32 with features := Features.extended, pcBits := 16, flashWords := 65536, ioRampz := some 0x3B }

/-- A state of that device. -/
def big (s : State) : State := { s with launch := { s.launch with device := bigDevice } }

theorem test_elpm :
    part (fun t => t.reg 0) (exec .elpm ({ big (withProg 0x0001 0x8000 0x1234) with rampz := 1 })) = some 0x12 := by decide
theorem test_elpmZ :
    part (fun t => t.reg 16) (exec (.elpmZ 16) ({ big (withProg 0x0001 0x8000 0x1234) with rampz := 1 })) = some 0x12 := by decide
theorem test_elpmZInc :
    part (fun t => (t.reg 17, t.ptr .Z, t.rampz)) (exec (.elpmZInc 17) (big (withProg 0xFFFF 0x7FFF 0xABCD))) =
      some (0xAB, 0x0000, 0x01) := by decide

/-- In the boot-loader section, next to a write of SPMCR that selected the operation `op`, with R1:R0 = 0x1234. -/
def spmState (op : Byte) (z : Word) : State :=
  { ((State.reset.setPtr .Z z).setReg 0 0x34).setReg 1 0x12 with pc := 0x3800, spmcr := op, spmWindow := .open }

theorem test_spm :
    part (fun t => (t.mem.byte .pageBuffer 4, t.mem.byte .pageBuffer 5, t.ptr .Z)) (exec .spm (spmState 0x01 0x7084)) =
      some (0x34, 0x12, 0x7084) := by decide
theorem test_spmZInc :
    part (fun t => (t.mem.byte .pageBuffer 4, t.ptr .Z)) (exec .spmZInc (spmState 0x01 0x7084)) = some (0x34, 0x7086) := by decide
theorem test_in :
    part (fun t => t.reg 17) (exec (.inp 17 0x3E) ({ State.reset with sp := 0x085F })) = some 0x08 := by decide
theorem test_out :
    part (fun t => (t.sp, t.sreg)) (exec (.out 0x3D 16) ({ withReg 16 0x5F with sp := 0x0800 })) = some (0x085F, 0x00) := by decide
theorem test_out_recorded :
    part (fun t => t.ioEvents) (exec (.out 0x18 18) (withReg 18 0x7F)) = some [.write 0x18 0x7F] := by decide

/-- A reduced core: only R16..R31 exist, and the one-word LDS and STS. -/
def reducedDevice : Device := { Device.atmega32 with features := Features.reducedCore, regCount := 16 }

/-- Reset with 32 I/O addresses, and with the premise MCUCR.SE = 0. -/
def fewIoState : State :=
  { withReg 3 0x80 with launch := { Launch.atmega32 with device := { Device.atmega32 with ioCount := 32 }, sleepMode := .nop } }

theorem test_absent_register :
    dataPlace reducedDevice 0x000F = .nothing 0x0F ∧ dataPlace reducedDevice 0x0010 = .reg 16 ∧ reducedDevice.wf = true := by decide
theorem test_io_count :
    part (fun t => t.ioEvents) (exec (.out 0x20 3) fewIoState) = some [.write 0x20 0x80] ∧
      part (fun t => t.eedr) (exec (.out 0x1D 3) fewIoState) = some 0x80 := by decide
theorem test_mcucr_unmodelled :
    ioReg { Launch.atmega32 with sleepMode := .nop } 0x35 = .unmodelled := by decide
theorem test_spmcr_without_spmen :
    part (fun t => (t.spmcr, t.spmWindow)) (exec (.out 0x37 3) ({ withReg 3 0x9E with spmcr := 0x40 })) = some (0xC0, .closed) := by decide

/-- A device whose whole data space has 256 bytes. -/
def smallDevice : Device := { Device.atmega32 with ramEnd := 0xFF, spBits := 8 }

/-- A state of that device. -/
def small (s : State) : State := { s with launch := { s.launch with device := smallDevice } }

theorem test_small_data_space :
    part (fun t => (t.reg 5, t.reg 26, t.reg 27)) (exec (.ldXInc 5) (small (withPtr .X 0x12FF 0xFF 0x77))) =
      some (0x77, 0x00, 0x12) := by decide
theorem test_small_data_space_predecrement :
    part (fun t => (t.mem.read .sram 0xFF, t.reg 28, t.reg 29)) (exec (.stYDec 5) (small (withPtrReg .Y 0x3400 5 0x66))) =
      some (some 0x66, 0xFF, 0x34) := by decide
theorem test_mcucr_recorded :
    part (fun t => (t.mcucr, t.ioEvents)) (exec (.out 0x35 3) (withReg 3 0x8F)) = some (0x8F, [.write 0x35 0x8F]) := by decide
theorem test_push :
    part (fun t => (t.mem.read .sram 0x85F, t.sp)) (exec (.push 17) (withSp 0x085F 17 0x41)) = some (some 0x41, 0x085E) := by decide
theorem test_pop :
    part (fun t => (t.reg 18, t.sp)) (exec (.pop 18) ({ withPtr .X 0 0x85F 0x41 with sp := 0x085E })) = some (0x41, 0x085F) := by decide
theorem test_pop_refused :
    refusalOf (exec (.pop 18) ({ State.reset with sp := 0x085F })) = some (.unimplementedDataAddress 0x860) := by decide
theorem test_xch :
    part (fun t => (t.mem.read .sram 0x100, t.reg 16)) (exec (.xch 16) ((withPtr .Z 0x0100 0x100 0x0F).setReg 16 0xF0)) =
      some (some 0xF0, 0x0F) := by decide
theorem test_xch_undefined :
    faultOf (exec (.xch 30) State.reset) = some .undefinedOperandCombination := by decide
theorem test_lsl :
    part (fun t => (t.reg 24, t.sreg)) (exec (.lsl 24) ({ withReg 24 0x7F with sreg := 0x00 })) = some (0xFE, 0x2C) := by decide
theorem test_lsl_rewrites :
    part (fun t => (t.reg 24, t.sreg)) (exec (.lsl 24) ({ withReg 24 0x01 with sreg := 0x7F })) = some (0x02, 0x40) := by decide
theorem test_lsr :
    part (fun t => (t.reg 16, t.sreg)) (exec (.lsr 16) ({ withReg 16 0x81 with sreg := 0x00 })) = some (0x40, 0x19) := by decide
theorem test_lsr_keeps :
    part (fun t => (t.reg 16, t.sreg)) (exec (.lsr 16) ({ withReg 16 0x02 with sreg := 0x60 })) = some (0x01, 0x60) := by decide
theorem test_rol :
    part (fun t => (t.reg 25, t.sreg)) (exec (.rol 25) ({ withReg 25 0x80 with sreg := 0x01 })) = some (0x01, 0x19) := by decide
theorem test_rol_no_carry :
    part (fun t => (t.reg 25, t.sreg)) (exec (.rol 25) ({ withReg 25 0x08 with sreg := 0x00 })) = some (0x10, 0x20) := by decide
theorem test_ror :
    part (fun t => (t.reg 16, t.sreg)) (exec (.ror 16) ({ withReg 16 0x01 with sreg := 0x01 })) = some (0x80, 0x15) := by decide
theorem test_ror_no_carry :
    part (fun t => (t.reg 16, t.sreg)) (exec (.ror 16) ({ withReg 16 0x01 with sreg := 0x00 })) = some (0x00, 0x1B) := by decide
theorem test_asr :
    part (fun t => (t.reg 17, t.sreg)) (exec (.asr 17) ({ withReg 17 0x81 with sreg := 0x00 })) = some (0xC0, 0x15) := by decide
theorem test_asr_zero :
    part (fun t => (t.reg 17, t.sreg)) (exec (.asr 17) ({ withReg 17 0x01 with sreg := 0x00 })) = some (0x00, 0x1B) := by decide
theorem test_swap :
    part (fun t => (t.reg 16, t.sreg)) (exec (.swap 16) ({ withReg 16 0xA5 with sreg := 0xFF })) = some (0x5A, 0xFF) := by decide
theorem test_sec :
    part (fun t => t.sreg) (exec .sec (withSreg 0x00)) = some 0x01 := by decide
theorem test_sez :
    part (fun t => t.sreg) (exec .sez (withSreg 0x00)) = some 0x02 := by decide
theorem test_sen :
    part (fun t => t.sreg) (exec .sen (withSreg 0x00)) = some 0x04 := by decide
theorem test_sev :
    part (fun t => t.sreg) (exec .sev (withSreg 0x00)) = some 0x08 := by decide
theorem test_ses :
    part (fun t => t.sreg) (exec .ses (withSreg 0x00)) = some 0x10 := by decide
theorem test_seh :
    part (fun t => t.sreg) (exec .seh (withSreg 0x00)) = some 0x20 := by decide
theorem test_setT :
    part (fun t => t.sreg) (exec .setT (withSreg 0x00)) = some 0x40 := by decide
theorem test_sei :
    part (fun t => t.sreg) (exec .sei (withSreg 0x00)) = some 0x80 := by decide
theorem test_clc :
    part (fun t => t.sreg) (exec .clc (withSreg 0xFF)) = some 0xFE := by decide
theorem test_clz :
    part (fun t => t.sreg) (exec .clz (withSreg 0xFF)) = some 0xFD := by decide
theorem test_cln :
    part (fun t => t.sreg) (exec .cln (withSreg 0xFF)) = some 0xFB := by decide
theorem test_clv :
    part (fun t => t.sreg) (exec .clv (withSreg 0xFF)) = some 0xF7 := by decide
theorem test_cls :
    part (fun t => t.sreg) (exec .cls (withSreg 0xFF)) = some 0xEF := by decide
theorem test_clh :
    part (fun t => t.sreg) (exec .clh (withSreg 0xFF)) = some 0xDF := by decide
theorem test_clt :
    part (fun t => t.sreg) (exec .clt (withSreg 0xFF)) = some 0xBF := by decide
theorem test_cli :
    part (fun t => t.sreg) (exec .cli (withSreg 0xFF)) = some 0x7F := by decide
theorem test_bset :
    part (fun t => t.sreg) (exec (.bset 6) (withSreg 0x00)) = some 0x40 := by decide
theorem test_bclr :
    part (fun t => t.sreg) (exec (.bclr 0) (withSreg 0x7F)) = some 0x7E := by decide
theorem test_sei_holdoff :
    part (fun t => t.holdoff) (exec .sei State.reset) = some true := by decide
theorem test_sbi :
    part (fun t => (t.eeWindow, t.eerie)) (exec (.sbi 0x1C 2) State.reset) = some (.open, false) := by decide
theorem test_sbi_eedr :
    part (fun t => t.eedr) (exec (.sbi 0x1D 3) ({ State.reset with eedr := 0xF0 })) = some 0xF8 := by decide
theorem test_cbi :
    part (fun t => t.eedr) (exec (.cbi 0x1D 3) ({ State.reset with eedr := 0xFF })) = some 0xF7 := by decide
theorem test_bst :
    part (fun t => t.sreg) (exec (.bst 16 0) ({ withReg 16 0xFE with sreg := 0x7F })) = some 0x3F := by decide
theorem test_bst_set :
    part (fun t => t.sreg) (exec (.bst 16 7) (withReg 16 0x80)) = some 0x40 := by decide
theorem test_bld :
    part (fun t => t.reg 17) (exec (.bld 17 7) ({ withReg 17 0xFF with sreg := 0x3F })) = some 0x7F := by decide
theorem test_bld_set :
    part (fun t => (t.reg 17, t.sreg)) (exec (.bld 17 0) ({ withReg 17 0x00 with sreg := 0x40 })) = some (0x01, 0x40) := by decide
theorem test_brk :
    part (fun t => t.pc) (exec .brk State.reset) = some 1 := by decide
theorem test_nop :
    part (fun t => t.pc) (exec .nop ({ State.reset with pc := 0x3FFF })) = some 0 := by decide
theorem test_sleep :
    part (fun t => (t.asleep, t.pc)) (exec .sleep ({ State.reset with mcucr := 0x80 })) = some (true, 1) := by decide
theorem test_sleep_disabled :
    part (fun t => (t.asleep, t.pc)) (exec .sleep State.reset) = some (false, 1) := by decide
theorem test_wdr :
    part (fun t => (t.watchdog, t.pc)) (exec .wdr ({ State.reset with watchdog := 7 })) = some (0, 1) := by decide

/-! ## The machine -/

theorem test_step_runs_fetched_word :
    part (fun t => (t.reg 16, t.pc)) (step (State.reset.withFetchWord 16 0xEA05)) = some (0xA5, 1) := by decide
theorem test_step_runs_two_words :
    part (fun t => (t.mem.read .sram 0x85F, t.pc)) (step (State.reset.withFetchWord 32 0x9230085F)) =
      some (some 0x00, 2) := by decide
theorem test_step_at_reset :
    refusalOf (step State.reset) = some (.notInScope 0xFFFF) := by decide

/-- The first vector of 95_test_vectors.md part 2.14: EE_RDY is enabled and its level is there. -/
def irqState : State :=
  { State.reset with pc := 0x0123, sreg := 0x81, sp := 0x085F, eerie := true }

theorem test_interrupt_entry :
    part (fun t => (t.mem.read .sram 0x85F, t.mem.read .sram 0x85E, t.sp, t.sreg, t.pc)) (step irqState) =
      some (some 0x23, some 0x01, 0x085D, 0x01, 0x0022) := by decide
theorem test_interrupt_turn :
    part (fun t => (t.pc, t.agenda)) (step { irqState with agenda := [.interrupt, .device .eepromDone] }) =
      some (0x0022, [.device .eepromDone]) := by decide
theorem test_level_outlasts_entry :
    part (fun t => (t.pc, t.pending .int0))
      (step { irqState with eerie := false, irqLevels := 0x4, irqFlags := 0x4, irqEnables := 0x4 }) = some (0x0002, true) := by decide
theorem test_entry_on_eecr_is_misuse :
    faultOf (step { irqState with sp := 0x003C, eeWindow := .open, eerie := true }) = some .eepromMisuse := by decide
theorem test_edge_cleared_by_entry :
    part (fun t => (t.pc, t.pending .int0))
      (step { irqState with eerie := false, irqFlags := 0x4, irqEnables := 0x4 }) = some (0x0002, false) := by decide

/-- The last vector of part 2.14: the requests of vectors 7 and 12, both enabled. -/
def twoRequests : State :=
  { State.reset with pc := 0x0200, sreg := 0x80, sp := 0x085F, irqFlags := 0x1080, irqEnables := 0x1080 }

theorem test_interrupt_priority :
    part (fun t => (t.pc, t.irqFlags)) (step twoRequests) = some (0x000C, 0x1000) := by decide
theorem test_eeprom_read :
    part (fun t => t.eedr) (exec (.sbi 0x1C 0) ({ State.reset with eearl := 0x10, mem := State.reset.mem.write .eeprom 0x10 0xA5 })) =
      some 0xA5 := by decide
theorem test_eeprom_read_busy :
    faultOf (exec (.sbi 0x1C 0) ({ State.reset with eeWrite := some { addr := 0, value := 0 } })) = some .eepromMisuse := by decide
theorem test_eeprom_read_back :
    part (fun t => t.reg 18) (exec (.inp 18 0x1C) ({ State.reset with eerie := true, eeWrite := some { addr := 0, value := 0 } })) =
      some 0x0A := by decide

/-! ## Witnesses: states and operands that meet the hypotheses of the obligations

Each theorem is named after the obligation. -/

/-- The invariant holds of a state whose parts pass these checks, with no EEPROM write and no SPM operation running. -/
theorem inv_of_checks (s : State) (h1 : s.eeWrite = none) (h2 : s.spmJob = none)
    (h3 : s.launch.device.wf = true ∧ s.mem.wf = true)
    (h4 : ((∀ c ∈ s.mem.sram, s.launch.device.sramStart ≤ c.1 ∧ c.1 ≤ s.launch.device.ramEnd) ∧
      (∀ c ∈ s.mem.flash, c.1 < 2 * s.launch.device.flashWords) ∧
      (∀ c ∈ s.mem.eeprom, c.1 < s.launch.device.eepromBytes) ∧
      (∀ c ∈ s.mem.pageBuffer, c.1 < pageBytes s.launch.device)))
    (h5 : s.pc.toNat < 2 ^ s.launch.device.pcBits ∧ s.sp.toNat < 2 ^ s.launch.device.spBits ∧
      s.rampz.toNat < 2 ^ rampzBits s.launch.device ∧ s.eearh.toNat < 4 ∧ s.spmcr.getLsbD 5 = false ∧
      (s.irqFlags.getLsbD 0 = false ∧ s.irqFlags.getLsbD 1 = false) ∧
      (s.irqLevels.getLsbD 0 = false ∧ s.irqLevels.getLsbD 1 = false) ∧
      (s.irqEnables.getLsbD 0 = false ∧ s.irqEnables.getLsbD 1 = false) ∧ s.eeWindow ≠ .armed ∧
      s.spmWindow ≠ .armed) : s.Inv :=
  { device := h3.1
    mem := h3.2
    cells := h4
    jobs := ⟨by simp [h1], by simp [h2], by simp [h2]⟩
    pc := h5.1
    sp := h5.2.1
    rampz := h5.2.2.1
    eearh := h5.2.2.2.1
    spmcr := h5.2.2.2.2.1
    irqFlags := h5.2.2.2.2.2.1
    irqLevels := h5.2.2.2.2.2.2.1
    irqEnables := h5.2.2.2.2.2.2.2.1
    eeWindow := h5.2.2.2.2.2.2.2.2.1
    spmWindow := h5.2.2.2.2.2.2.2.2.2 }

/-- Program memory holds one NOP, at word 0. -/
def nopState : State := State.reset.withFetchWord 16 0x0000

theorem witness_StepKeepsInv :
    nopState.Inv ∧ step nopState = .next (retire 1 nopState) := ⟨inv_of_checks _ rfl rfl (by decide) (by decide) (by decide), rfl⟩

theorem witness_StepKeepsInv_interrupt :
    irqState.Inv ∧ ∃ t, step irqState = .next t := ⟨inv_of_checks _ rfl rfl (by decide) (by decide) (by decide), ⟨_, rfl⟩⟩

theorem witness_DecodeOfEncode :
    WellFormed .atmega32 (.mov 31 0) = true ∧ WellFormed .extended (.xch 31) = true ∧
      WellFormed .reducedCore (.lds16 31 0xBF) = true := by decide

theorem witness_EncodeOfDecode :
    decode .atmega32 [0x20, 0x90, 0x5F, 0x08, 0xAA] = .instr (.lds 2 0x085F) [0xAA] := by decide

theorem witness_AddressMapsOfAtmega32 :
    dataPlace .atmega32 0x001F = .reg 31 ∧ dataPlace .atmega32 0x0020 = .io 0 ∧ dataPlace .atmega32 0x005F = .io 63 ∧
      dataPlace .atmega32 0x0060 = .sram 0x60 ∧ dataPlace .atmega32 0x085F = .sram 0x85F ∧
      dataPlace .atmega32 0x0860 = .nothing 0x860 ∧ ioReg Launch.atmega32 0x18 = .unmodelled ∧
      SleepMode.nop ≠ .mcucr := by decide

/-- The ATmega32 with 32 I/O addresses. -/
def fewIo : Device := fewIoState.launch.device

theorem witness_AddressMapsOfAtmega32_io_count :
    fewIo.ioCount ≤ (0x20 : IoAddr).toNat ∧ ¬fewIo.ioCount ≤ (0x1F : IoAddr).toNat := by decide

theorem witness_RegisterCopies :
    evenReg 30 = true ∧ evenReg 0 = true := by decide

theorem witness_LoadImmediate :
    WellFormed .atmega32 (.ldi 16 0xFF) = true ∧ WellFormed .atmega32 (.ldi 15 0xFF) = false := by decide

theorem witness_ShiftLeft :
    (withReg 24 0x80).reg 24 = 0x80 ∧ (withReg 24 0x00).reg 24 = 0x00 ∧ (withReg 24 0xA5).reg 24 = 0xA5 := by decide

theorem witness_ShiftRight :
    (∃ t, exec (.lsr 16) State.reset = .next t) ∧ (withReg 16 0x01).reg 16 = 0x01 ∧
      ((withReg 16 0xA5).reg 16 = 0xA5 ∧ (withReg 16 0xA5).sreg = 0x00) := ⟨⟨_, rfl⟩, by decide⟩

/-- C is set and R25 and R16 hold 0xA5. -/
def carryState : State := { (withReg 25 0xA5).setReg 16 0xA5 with sreg := 0x01 }

theorem witness_RotateLeft :
    carryState.reg 25 = 0xA5 ∧ carryState.sreg = 0x01 ∧ ((withReg 25 0x80).reg 25 = 0x80 ∧ (withReg 25 0x80).flag flagC = false) ∧
      ((carryState.setReg 25 0x80).reg 25 = 0x80 ∧ (carryState.setReg 25 0x80).flag flagC = true) := by decide

theorem witness_ProgramByteOrder :
    (withProg 0 8 0xABCD).mem.progWord 8 = 0xABCD := by decide

theorem witness_RotateRight :
    (∃ t, exec (.ror 16) State.reset = .next t) ∧ ((withReg 16 0x01).reg 16 = 0x01 ∧ (withReg 16 0x01).flag flagC = false) ∧
      (carryState.reg 0 = 0x00 ∧ carryState.flag flagC = true) ∧ carryState.reg 16 = 0xA5 ∧ carryState.sreg = 0x01 := ⟨⟨_, rfl⟩, by decide⟩

theorem witness_ArithmeticShiftRight :
    (withReg 17 0xFF).reg 17 = 0xFF ∧ (withReg 17 0x80).reg 17 = 0x80 ∧ (withReg 17 0x01).reg 17 = 0x01 ∧
      ((withReg 17 0xA5).reg 17 = 0xA5 ∧ (withReg 17 0xA5).sreg = 0x00) := by decide

/-- Reset under INTERRUPT_MODEL = none. -/
def noInterrupts : State := { State.reset with launch := { Launch.atmega32 with interruptModel := .none } }

theorem witness_OneFlagWritten :
    setsFlag (.bset 0) = some 0 ∧ setsFlag .sei = some flagI ∧ State.reset.launch.interruptModel = .agent ∧
      clearsFlag .cli = some 7 ∧ clearsFlag (.bclr 0) = some 0 ∧ noInterrupts.launch.interruptModel = .none := by decide

theorem witness_NamedSetForms :
    (withSreg 0x00).sreg = 0x00 ∧ (withSreg 0x01).sreg = 0x01 := by decide

theorem witness_NamedClearForms :
    (withSreg 0xFF).sreg = 0xFF ∧ (withSreg 0x00).sreg = 0x00 := by decide

/-- SRAM's first and last bytes hold values. -/
def edges : State :=
  { State.reset with mem := (State.reset.mem.write .sram 0x60 0x11).write .sram 0x85F 0x22 }

theorem witness_PlainLoads :
    loadForm edges (.lds 2 0x001F) = some (2, 0x001F) ∧ edges.dataByte 0x001F = some 0x00 ∧
      edges.dataByte 0x005F = some 0x00 ∧ edges.dataByte 0x0060 = some 0x11 ∧ edges.dataByte 0x085F = some 0x22 := by decide

theorem witness_PlainLoads_stops :
    loadForm edges (.lds 2 0x085E) = some (2, 0x085E) ∧ dataPlace edges.launch.device 0x085E = .sram 0x85E ∧
      edges.mem.read .sram 0x85E = none ∧ dataPlace edges.launch.device 0x0860 = .nothing 0x860 := by decide

theorem witness_PlainLoads_unmodelled :
    loadForm edges (.lds 2 0x0038) = some (2, 0x0038) ∧ edges.dataByte 0x0038 = some (ioDraw 0 0x18) := ⟨rfl, rfl⟩

/-- `edges`, with the pointer X set. -/
def edgesX (a : Word) : State := edges.setPtr .X a

theorem witness_UpdatingLoads :
    updLoadForm (.ldXInc 5) = some (.X, false, 5) ∧
      ((edgesX 0x0060).undefinedUpd .X false 5 = false ∧ (edgesX 0x0060).dataByte ((edgesX 0x0060).updAddr .X false) = some 0x11) ∧
      (edgesX 0x001A).undefinedUpd .X false 5 = true ∧ (edgesX 0x0060).undefinedUpd .X false 26 = true := by decide

theorem witness_UpdatingLoads_small :
    ((small (edgesX 0x0061)).launch.device.ioBase + (small (edgesX 0x0061)).launch.device.ioCount ≤ 256 ∧
      (small (edgesX 0x0061)).launch.device.ramEnd < 256) ∧ (small (edgesX 0x1261)).undefinedUpd .X true 5 = false ∧
      (small (edgesX 0x1261)).dataByte ((small (edgesX 0x1261)).updAddr .X true) = some 0x11 := by decide

theorem witness_UpdatingLoads_predecrement :
    updLoadForm (.ldXDec 5) = some (.X, true, 5) ∧
      ((edgesX 0x0860).undefinedUpd .X true 5 = false ∧ (edgesX 0x0860).dataByte ((edgesX 0x0860).updAddr .X true) = some 0x22) ∧
      (edgesX 0x001C).undefinedUpd .X true 5 = true ∧
      dataPlace edges.launch.device ((edgesX 0x0000).updAddr .X true) = .nothing 0xFFFF ∧
      dataPlace edges.launch.device ((edgesX 0x085F).updAddr .X true) = .sram 0x85E ∧ edges.mem.read .sram 0x85E = none := by decide

theorem witness_PlainStores :
    storeForm edges (.sts 0x001F 3) = some (3, 0x001F) ∧ dataPlace edges.launch.device 0x001F = .reg 31 ∧
      dataPlace edges.launch.device 0x0020 = .io 0 ∧ dataPlace edges.launch.device 0x0060 = .sram 0x60 ∧
      dataPlace edges.launch.device 0x085F = .sram 0x85F ∧ dataPlace edges.launch.device 0x0860 = .nothing 0x860 := by decide

theorem witness_UpdatingStores :
    updStoreForm (.stXDec 5) = some (.X, true, 5) ∧
      ((edgesX 0x0860).undefinedUpd .X true 5 = false ∧ dataPlace edges.launch.device ((edgesX 0x0860).updAddr .X true) = .sram 0x85F) ∧
      ((edgesX 0x0020).undefinedUpd .X true 5 = false ∧ dataPlace edges.launch.device ((edgesX 0x0020).updAddr .X true) = .reg 31) ∧
      ((edgesX 0x0060).undefinedUpd .X true 5 = false ∧ dataPlace edges.launch.device ((edgesX 0x0060).updAddr .X true) = .io 63) ∧
      (edgesX 0x0000).undefinedUpd .X true 5 = false ∧ (edgesX 0x0860).undefinedUpd .X true 26 = true := by decide

/-- Reset, with Z set. -/
def withZ (z : Word) : State := State.reset.setPtr .Z z

theorem witness_LpmReads :
    ((withZ 0x7FFF).ptr .Z).toNat / 2 < (withZ 0x7FFF).launch.device.flashWords ∧ (withZ 0x7FFF).readsLockBits = false ∧
      (withZ 0x8000).launch.device.flashWords ≤ ((withZ 0x8000).ptr .Z).toNat / 2 := by decide

theorem witness_LpmReads_readable :
    (withZ 0x7FFF).progReadable ((withZ 0x7FFF).ptr .Z).toNat := ⟨by decide, by decide⟩

/-- The device with RAMPZ, with RAMPZ : Z set. -/
def bigZ (r : Byte) (z : Word) : State := { big (withZ z) with rampz := r }

theorem witness_ElpmReads :
    (bigZ 0x01 0xFFFF).progReadable ((bigZ 0x01 0xFFFF).rampz ++ (bigZ 0x01 0xFFFF).ptr .Z).toNat ∧
      (bigZ 0x02 0x0000).launch.device.flashWords ≤ ((bigZ 0x02 0x0000).rampz ++ (bigZ 0x02 0x0000).ptr .Z).toNat / 2 := ⟨⟨by decide, by decide⟩, by decide⟩

theorem witness_SpmFillsBuffer :
    SpmReady 0b00001 (spmState 0x01 0x7084) ∧ (spmState 0x01 0x7084).launch.device = Device.atmega32 := ⟨⟨rfl, by decide, rfl, rfl, by decide⟩, rfl⟩

theorem witness_SpmErasesAndWritesPage :
    (SpmReady 0b00011 (spmState 0x03 0x7000) ∧ Device.atmega32.nrwwStart ≤ (spmState 0x03 0x7000).spmPage / 2) ∧
      SpmReady 0b00101 (spmState 0x05 0x7000) ∧ Device.atmega32.nrwwStart ≤ (spmState 0x05 0x7000).spmPage / 2 := ⟨⟨⟨rfl, by decide, rfl, rfl, by decide⟩, by decide⟩, ⟨rfl, by decide, rfl, rfl, by decide⟩, by decide⟩

theorem witness_SpmRunsBesideCore :
    (SpmReady 0b00011 (spmState 0x03 0x6FFF) ∧ (spmState 0x03 0x6FFF).spmPage / 2 < Device.atmega32.nrwwStart) ∧
      SpmReady 0b00101 (spmState 0x05 0x0000) ∧ (spmState 0x05 0x0000).spmPage / 2 < Device.atmega32.nrwwStart := ⟨⟨⟨rfl, by decide, rfl, rfl, by decide⟩, by decide⟩, ⟨rfl, by decide, rfl, rfl, by decide⟩, by decide⟩

theorem witness_SpmLockBitsAndReenable :
    SpmReady 0b01001 (spmState 0x09 0x0000) ∧ SpmReady 0b10001 (spmState 0x11 0x0000) := ⟨⟨rfl, by decide, rfl, rfl, by decide⟩, ⟨rfl, by decide, rfl, rfl, by decide⟩⟩

/-- Reset without the SPM device. -/
def noSpm : State := { State.reset with launch := { Launch.atmega32 with spmModel := .refuse } }

theorem witness_SpmCompletes :
    State.reset.launch.spmModel = .device ∧ State.reset.spmWindow = .closed ∧
      (spmState 0x01 0x0000).launch.spmModel = .device ∧ noSpm.launch.spmModel = .refuse ∧
      ({ spmState 0x03 0x0000 with pc := 0x37FF } : State).pc.toNat < Device.atmega32.bootStart := by decide

/-- Reset at the last word before the boot-loader section, with R3 holding `v`. -/
def beforeBoot (v : Byte) : State := { withReg 3 v with pc := 0x37FF }

theorem witness_OutWrites_spmcr :
    ioReg Launch.atmega32 0x37 = .spmcr ∧ State.reset.spmJob.isSome = false ∧
      (((beforeBoot 0x03).reg 3).getLsbD 0 = true ∧ ((beforeBoot 0x02).reg 3).getLsbD 0 = false) ∧
      part (fun t => decide (Device.atmega32.bootStart ≤ t.pc.toNat)) (exec (.out 0x37 3) (beforeBoot 0x03)) = some true ∧
      ({ State.reset with spmJob := some (.erase 0) } : State).spmJob.isSome = true := by decide

theorem witness_SpmReady_reached :
    ∃ t, exec (.out 0x37 3) (beforeBoot 0x03) = .next t ∧ SpmReady 0b00011 t := ⟨_, rfl, rfl, by decide, rfl, rfl, by decide⟩

theorem witness_OutWrites :
    noInterrupts.launch.interruptModel = .none ∧ ((noInterrupts.setReg 3 0x80).reg 3).getLsbD 7 = true ∧
      ioReg noInterrupts.launch 0x3F = .sreg ∧ ioReg { Launch.atmega32 with device := bigDevice } 0x3B = .rampz := by decide

/-- Reset, with an EEPROM write in progress. -/
def writing : State := { State.reset with eeWrite := some { addr := 0x3FF, value := 0xA5 } }

theorem witness_EepromRegistersWritten :
    writing.eeWrite.isSome = true ∧ ioReg writing.launch 0x1F = .eearh ∧ State.reset.eeWrite = none ∧
      ioReg State.reset.launch 0x1E = .eearl ∧ ioReg State.reset.launch 0x1D = .eedr := by decide

/-- No device acts between the accesses of a read-modify-write after reset. -/
theorem noMidTurn_of_empty {s : State} (h : s.agenda = []) : s.noMidTurn := by
  intro e rest he
  rw [h] at he
  cases he

theorem witness_IoBitWritten :
    State.reset.noMidTurn ∧ ioReg State.reset.launch 0x18 = .unmodelled ∧ ioReg State.reset.launch 0x1D = .eedr ∧
      State.reset.eeWrite = none ∧
      ({ State.reset with agenda := [.mid (.raise .int0)] } : State).agenda = .mid (.raise .int0) :: [] := ⟨noMidTurn_of_empty rfl, by decide⟩

theorem witness_EecrWritten :
    ioReg State.reset.launch 0x1C = .eecr ∧
      ((withReg 3 0x08).reg 3).getLsbD 0 = false ∧ ((withReg 3 0x08).reg 3).getLsbD 1 = false ∧
      (((withReg 3 0x02).reg 3).getLsbD 0 = false ∧ ((withReg 3 0x02).reg 3).getLsbD 2 = false ∧
        (withReg 3 0x02).eeWindow = .closed) ∧ writing.eeWrite.isSome = true := by decide

/-- The window is open, EEAR is the EEPROM's last address, and R3 holds `v`. -/
def opened (v : Byte) : State := { withReg 3 v with eeWindow := .open, eearh := 0x03, eearl := 0xFF, eedr := 0xA5 }

theorem witness_EecrWritten_starts :
    ((opened 0x02).reg 3).getLsbD 0 = false ∧ ((opened 0x02).reg 3).getLsbD 1 = true ∧ (opened 0x02).eeWrite = none ∧
      (opened 0x02).eeWindow = .open ∧ (opened 0x02).spmJob = none ∧
      (opened 0x02).eepromAddr < (opened 0x02).launch.device.eepromBytes := by decide

theorem witness_EereSet :
    ioReg (opened 0x01).launch 0x1C = .eecr ∧ ((opened 0x01).reg 3).getLsbD 0 = true ∧
      ((opened 0x01).reg 3).getLsbD 1 = false ∧ (opened 0x01).eeWrite = none ∧ (opened 0x01).eepromAddr = 0x3FF ∧
      (opened 0x01).eepromAddr < (opened 0x01).launch.device.eepromBytes := by decide

theorem witness_EecrMisuse :
    (((withReg 3 0x03).reg 3).getLsbD 0 = true ∧ ((withReg 3 0x03).reg 3).getLsbD 1 = true) ∧
      (((writing.setReg 3 0x01).reg 3).getLsbD 0 = true ∧ (writing.setReg 3 0x01).eeWrite.isSome = true) ∧
      (((withReg 3 0x06).reg 3).getLsbD 1 = true ∧ (withReg 3 0x06).eeWrite = none ∧ (withReg 3 0x06).eeWindow = .closed ∧
        ((withReg 3 0x06).reg 3).getLsbD 2 = true) ∧
      ({ withReg 3 0x02 with eeWindow := .stale } : State).eeWindow = .stale := by decide

/-- The EEPROM agent's turn is due. -/
def finishing : State := { writing with agenda := [.device .eepromDone] }

theorem witness_EepromWriteEnds :
    finishing.atEnd = false ∧ finishing.agenda = .device .eepromDone :: [] ∧
      finishing.eeWrite = some { addr := 0x3FF, value := 0xA5 } := by decide

theorem witness_EepromWriteProcedure :
    ioReg (opened 0x00).launch 0x1C = .eecr ∧ (opened 0x00).noMidTurn ∧ (opened 0x00).eeWrite = none ∧
      (opened 0x00).spmJob = none ∧ (opened 0x00).eepromAddr < (opened 0x00).launch.device.eepromBytes := ⟨by decide, noMidTurn_of_empty rfl, rfl, rfl, by decide⟩

/-- `edges`, with SP set. -/
def edgesSp (a : Word) : State := { edges with sp := a }

theorem witness_PushStores :
    ((edgesSp 0x085F).Inv ∧ dataPlace Device.atmega32 0x085F = .sram 0x85F) ∧
      ((edgesSp 0x0060).Inv ∧ dataPlace Device.atmega32 0x0060 = .sram 0x60) ∧
      ((edgesSp 0x0000).Inv ∧ dataPlace Device.atmega32 0x0000 = .reg 0) ∧
      ((edgesSp 0x005F).Inv ∧ dataPlace Device.atmega32 0x005F = .io 63) ∧
      ((edgesSp 0x0FFF).Inv ∧ dataPlace Device.atmega32 0x0FFF = .nothing 0xFFF) := ⟨⟨inv_of_checks _ rfl rfl (by decide) (by decide) (by decide), rfl⟩,
    ⟨inv_of_checks _ rfl rfl (by decide) (by decide) (by decide), rfl⟩,
    ⟨inv_of_checks _ rfl rfl (by decide) (by decide) (by decide), rfl⟩,
    ⟨inv_of_checks _ rfl rfl (by decide) (by decide) (by decide), rfl⟩,
    ⟨inv_of_checks _ rfl rfl (by decide) (by decide) (by decide), rfl⟩⟩

theorem witness_PopLoads :
    ((edgesSp 0x085E).Inv ∧ edges.mem.read .sram 0x85F = some 0x22) ∧
      ((edgesSp 0x085D).Inv ∧ edges.mem.read .sram 0x85E = none) ∧
      ((edgesSp 0x0FFF).Inv ∧ BitVec.ofNat 16 ((0x0FFF + 1) % 2 ^ 12) = 0x0000#16) ∧
      ((edgesSp 0x001F).Inv ∧ dataPlace Device.atmega32 0x0020 = .io 0) ∧
      ((edgesSp 0x085F).Inv ∧ dataPlace Device.atmega32 0x0860 = .nothing 0x860) := ⟨⟨inv_of_checks _ rfl rfl (by decide) (by decide) (by decide), rfl⟩,
    ⟨inv_of_checks _ rfl rfl (by decide) (by decide) (by decide), rfl⟩,
    ⟨inv_of_checks _ rfl rfl (by decide) (by decide) (by decide), rfl⟩,
    ⟨inv_of_checks _ rfl rfl (by decide) (by decide) (by decide), rfl⟩,
    ⟨inv_of_checks _ rfl rfl (by decide) (by decide) (by decide), rfl⟩⟩

theorem witness_PushThenPop :
    (edgesSp 0x085F).Inv ∧ dataPlace (edgesSp 0x085F).launch.device (edgesSp 0x085F).sp = .sram 0x85F := ⟨inv_of_checks _ rfl rfl (by decide) (by decide) (by decide), rfl⟩

/-- `edges`, with Z set. -/
def edgesZ (a : Word) : State := edges.setPtr .Z a

theorem witness_ExchangeSwaps_mid :
    ({ edgesZ 0x085F with agenda := [.mid (.raise .int0)] } : State).agenda = .mid (.raise .int0) :: [] := rfl

theorem witness_ExchangeSwaps :
    (edgesZ 0x085F).noMidTurn ∧
      (dataPlace Device.atmega32 ((edgesZ 0x085F).dataPtr .Z) = .sram 0x85F ∧ (edgesZ 0x085F).mem.read .sram 0x85F = some 0x22) ∧
      (dataPlace Device.atmega32 ((edgesZ 0x085E).dataPtr .Z) = .sram 0x85E ∧ (edgesZ 0x085E).mem.read .sram 0x85E = none) ∧
      dataPlace Device.atmega32 ((edgesZ 0x001F).dataPtr .Z) = .reg 31 ∧ dataPlace Device.atmega32 ((edgesZ 0x0020).dataPtr .Z) = .io 0 ∧
      dataPlace Device.atmega32 ((edgesZ 0x0860).dataPtr .Z) = .nothing 0x860 := ⟨noMidTurn_of_empty rfl, by decide⟩

/-- Asleep, with interrupts disabled. -/
def sleeping : State := { State.reset with asleep := true }

theorem witness_SleepEnters :
    sleeping.atEnd = false ∧ sleeping.agenda = [] ∧ sleeping.asleep = true ∧ sleeping.takeable = none ∧
      sleeping.flag flagI = false := by decide

theorem witness_VectorAddresses :
    vectorAddr .atmega32 1 = 0 ∧ vectorAddr .atmega32 2 = vectorAddr .atmega32 1 + 2 ∧ vectorAddr .atmega32 21 = 0x28 := by decide

theorem witness_TakenWhen :
    irqState.takeable = some .eeRdy ∧ twoRequests.takeable = some .timer1Capt := by decide

/-- `irqState`, with SP set. -/
def irqSp (a : Word) : State := { irqState with sp := a }

theorem witness_InterruptEntry :
    irqState.Inv ∧ 0 < irqState.launch.device.spBits ∧ irqState.atEnd = false ∧ irqState.agenda = [] ∧
      irqState.takeable = some .eeRdy ∧ dataPlace irqState.launch.device irqState.sp = .sram 0x85F ∧
      dataPlace irqState.launch.device irqState.spBelow = .sram 0x85E := ⟨inv_of_checks _ rfl rfl (by decide) (by decide) (by decide), by decide⟩

theorem witness_InterruptEntry_registers :
    (irqSp 0x001F).Inv ∧ dataPlace Device.atmega32 (irqSp 0x001F).sp = .reg 31 ∧
      dataPlace Device.atmega32 (irqSp 0x001F).spBelow = .reg 30 := ⟨inv_of_checks _ rfl rfl (by decide) (by decide) (by decide), by decide⟩

theorem witness_InterruptEntry_refused :
    dataPlace Device.atmega32 (irqSp 0x0860).sp = .nothing 0x860 ∧ (irqSp 0x0000).Inv ∧
      dataPlace Device.atmega32 (irqSp 0x0000).sp = .reg 0 ∧ dataPlace Device.atmega32 (irqSp 0x0000).spBelow = .nothing 0xFFF := ⟨by decide, inv_of_checks _ rfl rfl (by decide) (by decide) (by decide), by decide⟩

theorem witness_InterruptEntry_eecr :
    dataPlace Device.atmega32 (irqSp 0x003C).sp = .io 0x1C ∧ ioReg Launch.atmega32 0x1C = .eecr ∧
      (irqSp 0x003C).pc.getLsbD 1 = true ∧ (irqSp 0x003C).eeWrite = none ∧
      ({ irqSp 0x003C with eeWindow := .open } : State).eeWindow ≠ .closed := by decide

theorem witness_InterruptEntry_turn :
    ({ irqState with agenda := [.interrupt] } : State).atEnd = false ∧
      ({ irqState with agenda := [.interrupt] } : State).takeable = some .eeRdy ∧
      ({ State.reset with agenda := [.interrupt] } : State).takeable = none := by decide

theorem witness_ReturnUndoesEntry :
    irqState.Inv ∧ ∃ t, enterInterrupt .eeRdy irqState = .next t := ⟨inv_of_checks _ rfl rfl (by decide) (by decide) (by decide), ⟨_, rfl⟩⟩

theorem witness_HoldOff :
    setsFlag .sei = some flagI ∧ State.reset.launch.interruptModel = .agent ∧ setsFlag .nop ≠ some flagI ∧
      clearsFlag .cli = some flagI := by decide

theorem witness_HoldOff_next :
    ∃ t, exec .nop State.reset = .next t := ⟨_, rfl⟩

theorem witness_RequestsRemembered :
    (State.reset.noMidTurn ∧ ∃ t, exec .nop State.reset = .next t) ∧ State.reset.launch.eepromModel = .device := ⟨⟨noMidTurn_of_empty rfl, ⟨_, rfl⟩⟩, rfl⟩

/-- Program memory holds `LDS R2,0x085F` in its last two words, where the pc is. -/
def lastWords : State := { State.reset with pc := 0x3FFE }.withFetchWord 32 0x9020085F

theorem witness_StepRunsDecoded :
    lastWords.pcWrapped = false ∧
      decode lastWords.launch.device.features lastWords.fetchBytes = .instr (.lds 2 0x085F) [] ∧
      lastWords.pc.toNat + Instr.words (.lds 2 0x085F) ≤ lastWords.launch.device.flashWords ∧
      (lastWords.sectionBusy 0x3FFE = false ∧ lastWords.sectionBusy 0x3FFF = false) ∧
      lastWords.atEnd = false ∧ lastWords.agenda = [] ∧ lastWords.takeable = none ∧ lastWords.asleep = false := by decide

theorem witness_StepRunsDecoded_core_turn :
    ({ lastWords with agenda := [.core, .core] } : State).atEnd = false ∧
      ({ lastWords with agenda := [.core, .core] } : State).asleep = false := by decide

theorem witness_StepStops :
    (State.reset.atEnd = false ∧ State.reset.agenda = [] ∧ State.reset.takeable = none ∧ State.reset.asleep = false) ∧
      (State.reset.pcWrapped = false ∧ State.reset.pc.toNat < State.reset.launch.device.flashWords ∧
        State.reset.sectionBusy 0 = false ∧
        decode State.reset.launch.device.features State.reset.fetchBytes = .notInScope 0xFFFF) := by decide

theorem witness_StepStops_outside :
    ({ State.reset with pc := 0x4000 } : State).launch.device.flashWords ≤ ({ State.reset with pc := 0x4000 } : State).pc.toNat ∧
      ({ State.reset with pcWrapped := true } : State).pcWrapped = true ∧
      ({ State.reset with launch := { Launch.atmega32 with endPc := some 0 } } : State).launch.endPc = some 0 := by decide

/-- Program memory holds the first word of `LDS R2,k` in its last word, where the pc is. -/
def cutOff : State :=
  { State.reset with
    pc := 0x3FFF
    mem := (State.reset.mem.write .flash 0x7FFE 0x20).write .flash 0x7FFF 0x90 }

theorem witness_StepStops_second_word :
    (cutOff.atEnd = false ∧ cutOff.agenda = [] ∧ cutOff.takeable = none ∧ cutOff.asleep = false) ∧
      (cutOff.pcWrapped = false ∧ cutOff.sectionBusy 0x3FFF = false ∧ cutOff.pc.toNat + 1 = cutOff.launch.device.flashWords) ∧
      decode cutOff.launch.device.features (bytesOf [cutOff.mem.progWord 0x3FFF]) = .truncated := by decide

theorem witness_StepStops_busy_section :
    ({ State.reset with spmcr := 0x40 } : State).sectionBusy 0 = true ∧
      ({ State.reset with spmcr := 0x40 } : State).takeable = none := by decide

theorem witness_PcAdvances :
    (∃ t, exec (.lds 2 0x0060) edges = .next t) ∧ (∃ t, exec (.sts 0x0060 2) edges = .next t) ∧
      ∃ t, exec .nop { edges with pc := 0x3FFF } = .next t := ⟨⟨_, rfl⟩, ⟨_, rfl⟩, ⟨_, rfl⟩⟩

theorem witness_SregWriters :
    part (fun t => decide (t.sreg ≠ State.reset.sreg)) (exec .sec State.reset) = some true ∧
      part (fun t => decide (t.sreg ≠ 0)) (exec (.out 0x3F 3) (withReg 3 0x41)) = some true ∧
      part (fun t => decide (t.sreg ≠ 0)) (exec (.sts 0x005F 3) (withReg 3 0x41)) = some true := by decide

theorem witness_OnlySpmWritesProgram :
    State.reset.noMidTurn ∧ ∃ t, exec (.sts 0x0060 2) State.reset = .next t := ⟨noMidTurn_of_empty rfl, ⟨_, rfl⟩⟩

/-- A reset is due while an EEPROM write is in progress. -/
def resetting (c : ResetCause) : State := { writing with agenda := [.reset c] }

theorem witness_ResetInMidRun :
    (resetting .pin).atEnd = false ∧ (resetting .pin).agenda = .reset .pin :: [] ∧ (resetting .pin).spmJob = none ∧
      (ResetCause.pin ≠ .powerOn) ∧ (resetting .powerOn).agenda = .reset .powerOn :: [] := by decide

theorem witness_ResetInMidRun_page :
    ({ resetting .pin with spmJob := some (.erase 0x80) } : State).spmJob = some (.erase 0x80) ∧
      ¬(0x80 ≤ 0x7F ∧ 0x7F < 0x80 + pageBytes Device.atmega32) ∧ ¬(0x80 ≤ 0x100 ∧ 0x100 < 0x80 + pageBytes Device.atmega32) := by decide

/-- The watchdog is enabled and has counted. -/
def barking : State :=
  { resetting .watchdog with watchdog := 1, launch := { Launch.atmega32 with watchdogEnabled := true } }

theorem witness_ResetInMidRun_watchdog :
    barking.agenda = .reset .watchdog :: [] ∧ barking.launch.watchdogEnabled = true ∧ 0 < barking.watchdog := by decide

end Sys2Proof.Tests
end

section
/-! SUPPORT. The invariant in the middle of an instruction, and that the memories, the devices and the writes of the
parts of the state keep it. -/

namespace Sys2Proof.Machine

open Config

/-! ## The device parameters -/

/-- What the proofs use of the meaning of the device parameters. -/
theorem Device.wf_bounds {d : Device} (h : d.wf = true) :
    d.pcBits ≤ 16 ∧ d.spBits ≤ 16 ∧ 0 < d.flashWords ∧ d.flashWords ≤ 2 ^ d.pcBits ∧ 0 < d.pageWords ∧
      d.flashWords % d.pageWords = 0 := by
  simp only [Device.wf, Bool.and_eq_true, decide_eq_true_eq] at h
  obtain ⟨⟨⟨⟨⟨⟨⟨⟨⟨⟨hpc, hpos⟩, hfl⟩, _⟩, hsp⟩, hpage⟩, hmod⟩, _⟩, _⟩, _⟩, _⟩ := h
  exact ⟨hpc, hsp, hpos, hfl, hpage, hmod⟩

/-- Program memory is at most 2^16 words, so RAMPZ has at most one implemented bit (R33). -/
theorem rampzBits_le_one {d : Device} (h : d.wf = true) : rampzBits d ≤ 1 := by
  obtain ⟨hpc, _, _, hfl, _, _⟩ := Device.wf_bounds h
  have hpow : 2 ^ d.pcBits ≤ 2 ^ 16 := Nat.pow_le_pow_right (by decide) hpc
  have hlog : Nat.log2 (2 * d.flashWords - 1) < 17 := by
    by_cases hz : 2 * d.flashWords - 1 = 0
    · simp [hz]
    · exact (Nat.log2_lt hz).2 (by omega)
  unfold rampzBits
  omega

/-- Masking with the low `n` bits leaves a value of `n` bits. -/
theorem toNat_and_lowMask_lt {w n : Nat} (v : BitVec w) (hn : n ≤ w) :
    (v &&& BitVec.ofNat w (2 ^ n - 1)).toNat < 2 ^ n := by
  have hle : 2 ^ n ≤ 2 ^ w := Nat.pow_le_pow_right (by decide) hn
  have hpos : 0 < 2 ^ n := Nat.two_pow_pos n
  have hmask : (BitVec.ofNat w (2 ^ n - 1)).toNat = 2 ^ n - 1 := by
    rw [BitVec.toNat_ofNat, Nat.mod_eq_of_lt (by omega)]
  rw [BitVec.toNat_and, hmask]
  exact Nat.lt_of_le_of_lt Nat.and_le_right (by omega)

/-- A word reduced modulo 2^n is below it. -/
theorem toNat_ofNat_mod_two_pow_lt (a n : Nat) : (BitVec.ofNat 16 (a % 2 ^ n)).toNat < 2 ^ n := by
  rw [BitVec.toNat_ofNat]
  exact Nat.lt_of_le_of_lt (Nat.mod_le _ _) (Nat.mod_lt _ (Nat.two_pow_pos n))

/-! ## The addresses of the memories -/

/-- The addresses that a memory of the device has. -/
def Space.has (d : Device) : Space → Nat → Prop
  | .sram, a => d.sramStart ≤ a ∧ a ≤ d.ramEnd
  | .flash, a => a < 2 * d.flashWords
  | .eeprom, a => a < d.eepromBytes
  | .pageBuffer, a => a < pageBytes d

/-- Every memory lists only addresses it has. -/
def Memory.InRange (d : Device) (m : Memory) : Prop := ∀ sp, ∀ c ∈ m.cells sp, sp.has d c.1

theorem State.cellsInRange_iff (s : State) : s.cellsInRange ↔ s.mem.InRange s.launch.device := by
  constructor
  · rintro ⟨hsram, hflash, heeprom, hbuffer⟩ sp
    cases sp
    · exact hsram
    · exact hflash
    · exact heeprom
    · exact hbuffer
  · intro h
    exact ⟨h .sram, h .flash, h .eeprom, h .pageBuffer⟩

theorem mem_of_mem_insertCell {cs : List Host.Cell} {a : Nat} {v : Byte} {c : Host.Cell}
    (h : c ∈ insertCell cs a v) : c = (a, v) ∨ c ∈ cs := by
  have hall := all_insertCell (fun d => decide (d = (a, v) ∨ d ∈ cs)) cs a v (by simp +contextual) (by simp)
  simpa using List.all_eq_true.1 hall c h

theorem mem_of_mem_eraseCell {cs : List Host.Cell} {a : Nat} {c : Host.Cell} (h : c ∈ eraseCell cs a) : c ∈ cs := by
  have hall := all_eraseCell (fun d => decide (d ∈ cs)) cs a (by simp)
  simpa using List.all_eq_true.1 hall c h

theorem Memory.InRange.write {d : Device} {m : Memory} (h : m.InRange d) {sp : Space} {a : Nat} (v : Byte)
    (ha : sp.has d a) : (m.write sp a v).InRange d := by
  intro sp' c hc
  rw [Memory.write, Memory.cells_setCells] at hc
  split at hc
  · next hsp =>
    subst hsp
    split at hc
    · exact h _ c (mem_of_mem_eraseCell hc)
    · rcases mem_of_mem_insertCell hc with rfl | hc
      · exact ha
      · exact h _ c hc
  · exact h _ c hc

theorem Memory.InRange.writeRun {d : Device} {m : Memory} (h : m.InRange d) {sp : Space} {a n : Nat} (f : Nat → Byte)
    (ha : ∀ i, i < n → sp.has d (a + i)) : (m.writeRun sp a f n).InRange d := by
  induction n with
  | zero => exact h
  | succ n ih => exact (ih fun i hi => ha i (by omega)).write (f n) (ha n (by omega))

theorem Memory.InRange.clear {d : Device} {m : Memory} (h : m.InRange d) (sp : Space) :
    (m.setCells sp []).InRange d := by
  intro sp' c hc
  rw [Memory.cells_setCells] at hc
  split at hc
  · simp at hc
  · exact h _ c hc

/-! ## The page operations -/

/-- The byte address at which the page of a page operation begins. -/
def SpmJob.base : SpmJob → Nat
  | .erase b => b
  | .write b => b

/-- The page of a page operation lies in program memory. -/
def SpmJob.InRange (d : Device) (j : SpmJob) : Prop := j.base + pageBytes d ≤ 2 * d.flashWords

theorem State.jobsInRange_iff (s : State) :
    s.jobsInRange ↔ (∀ w, s.eeWrite = some w → w.addr < s.launch.device.eepromBytes) ∧
      ∀ j, s.spmJob = some j → j.InRange s.launch.device := by
  constructor
  · rintro ⟨hee, herase, hwrite⟩
    refine ⟨hee, fun j hj => ?_⟩
    cases j with
    | erase b => exact herase b hj
    | write b => exact hwrite b hj
  · rintro ⟨hee, hspm⟩
    exact ⟨hee, fun b hb => hspm _ hb, fun b hb => hspm _ hb⟩

/-- A write of the page of a page operation stays in program memory. -/
theorem Memory.InRange.writePage {d : Device} {m : Memory} (h : m.InRange d) {j : SpmJob} (hj : j.InRange d)
    (f : Nat → Byte) : (m.writeRun .flash j.base f (pageBytes d)).InRange d :=
  h.writeRun f fun i hi => by
    show j.base + i < 2 * d.flashWords
    unfold SpmJob.InRange at hj
    omega

/-- The page that SPM addresses lies in program memory, which is made of whole pages (R158; log 43). -/
theorem State.spmPage_inRange {s : State} (h : s.launch.device.wf = true) :
    s.spmPage + pageBytes s.launch.device ≤ 2 * s.launch.device.flashWords := by
  obtain ⟨_, _, hpos, _, _, hmod⟩ := Device.wf_bounds h
  obtain ⟨k, hk⟩ := Nat.dvd_of_mod_eq_zero hmod
  have hword : s.spmWord < s.launch.device.pageWords * k := hk ▸ Nat.mod_lt _ hpos
  have hpage : s.spmWord / s.launch.device.pageWords + 1 ≤ k := Nat.div_lt_of_lt_mul hword
  have hend := Nat.mul_le_mul_right s.launch.device.pageWords hpage
  rw [Nat.add_mul, Nat.mul_comm k, ← hk] at hend
  unfold State.spmPage pageBytes
  omega

/-- The word that SPM addresses in the page buffer lies in the page. -/
theorem State.spmIndex_lt {s : State} (h : s.launch.device.wf = true) : s.spmIndex < s.launch.device.pageWords := by
  obtain ⟨_, _, _, _, hpage, _⟩ := Device.wf_bounds h
  exact Nat.mod_lt _ hpage

/-! ## The invariant in the middle of an instruction -/

/-- The invariant but for the timed unlock bits: it holds also between the parts of an instruction, where a write of
EECR or SPMCR has set its bit and the instruction has not yet ended. -/
structure State.Sound (s : State) : Prop where
  device : s.launch.device.wf = true
  mem : s.mem.wf = true
  cells : s.mem.InRange s.launch.device
  eeWrite : ∀ w, s.eeWrite = some w → w.addr < s.launch.device.eepromBytes
  spmJob : ∀ j, s.spmJob = some j → j.InRange s.launch.device
  pc : s.pc.toNat < 2 ^ s.launch.device.pcBits
  sp : s.sp.toNat < 2 ^ s.launch.device.spBits
  rampz : s.rampz.toNat < 2 ^ rampzBits s.launch.device
  eearh : s.eearh.toNat < 4
  spmcr : s.spmcr.getLsbD 5 = false
  irqFlags : s.irqFlags.getLsbD 0 = false ∧ s.irqFlags.getLsbD 1 = false
  irqLevels : s.irqLevels.getLsbD 0 = false ∧ s.irqLevels.getLsbD 1 = false
  irqEnables : s.irqEnables.getLsbD 0 = false ∧ s.irqEnables.getLsbD 1 = false

theorem State.inv_iff (s : State) : s.Inv ↔ s.Sound ∧ s.eeWindow ≠ .armed ∧ s.spmWindow ≠ .armed := by
  constructor
  · intro h
    have hjobs := s.jobsInRange_iff.1 h.jobs
    exact ⟨⟨h.device, h.mem, s.cellsInRange_iff.1 h.cells, hjobs.1, hjobs.2, h.pc, h.sp, h.rampz, h.eearh, h.spmcr,
      h.irqFlags, h.irqLevels, h.irqEnables⟩, h.eeWindow, h.spmWindow⟩
  · rintro ⟨h, hee, hspm⟩
    exact ⟨h.device, h.mem, s.cellsInRange_iff.2 h.cells, s.jobsInRange_iff.2 ⟨h.eeWrite, h.spmJob⟩, h.pc, h.sp,
      h.rampz, h.eearh, h.spmcr, h.irqFlags, h.irqLevels, h.irqEnables, hee, hspm⟩

/-- What no clause of `State.Sound` speaks of may change. -/
theorem State.Sound.congr {s u : State} (h : s.Sound)
    (hu : u = { s with
      regs := u.regs, pcWrapped := u.pcWrapped, sreg := u.sreg, eearl := u.eearl, eedr := u.eedr, eerie := u.eerie,
      eeWindow := u.eeWindow, mcucr := u.mcucr, spmWindow := u.spmWindow, lockBits := u.lockBits,
      holdoff := u.holdoff, asleep := u.asleep, watchdog := u.watchdog, ioEvents := u.ioEvents, agenda := u.agenda,
      draws := u.draws }) : u.Sound := by
  rw [hu]
  exact { h with }

/-- Another memory that is canonical and lists only addresses it has. -/
theorem State.Sound.withMem {s : State} (h : s.Sound) {m : Memory} (hwf : m.wf = true)
    (hm : m.InRange s.launch.device) : State.Sound { s with mem := m } :=
  { h with mem := hwf, cells := hm }

theorem State.Sound.setSp {s : State} (h : s.Sound) (v : Word) : (s.setSp v).Sound :=
  { h with sp := toNat_and_lowMask_lt v (Device.wf_bounds h.device).2.1 }

theorem State.Sound.setRampz {s : State} (h : s.Sound) (v : Byte) : (s.setRampz v).Sound :=
  { h with rampz := toNat_and_lowMask_lt v (Nat.le_trans (rampzBits_le_one h.device) (by decide)) }

theorem State.Sound.withSpmcr {s : State} (h : s.Sound) {v : Byte} (hv : v.getLsbD 5 = false) :
    State.Sound { s with spmcr := v } :=
  { h with spmcr := hv }

/-! ## The SPM device -/

theorem closeSpm_sound {s : State} (h : s.Sound) : (closeSpm s).Sound :=
  (h.withSpmcr (v := s.spmcr &&& 0xC0#8) (by simp)).congr rfl

theorem spmcrWrite_sound {s : State} (h : s.Sound) (v : Byte) : (spmcrWrite s v).Sound := by
  unfold spmcrWrite
  split
  · refine h.withSpmcr ?_
    rw [getLsbD_setBit _ _ _ _ (by decide), if_neg (by decide)]
    exact h.spmcr
  · split
    · exact (h.withSpmcr (v := (v &&& 0x9F#8) ||| (s.spmcr &&& 0x40#8)) (by simp)).congr rfl
    · exact (h.withSpmcr (v := (v &&& 0x80#8) ||| (s.spmcr &&& 0x40#8)) (by simp)).congr rfl

theorem finishJob_sound {s : State} (h : s.Sound) {j : SpmJob} (hj : j.InRange s.launch.device) :
    (finishJob j s).Sound := by
  have hwf := finishJob_wf j s h.mem
  cases j with
  | erase b => exact h.withMem hwf (h.cells.writePage hj _)
  | write b => exact h.withMem hwf ((h.cells.writePage hj _).clear _)

theorem startJob_sound {s : State} (h : s.Sound) {j : SpmJob} (hj : j.InRange s.launch.device) :
    (startJob j s).Sound := by
  unfold startJob
  split
  · exact closeSpm_sound (finishJob_sound h hj)
  · have hbits : (s.spmcr ||| 0x40#8).getLsbD 5 = false := by simpa using h.spmcr
    exact { h with spmJob := fun _ e => Option.some.inj e ▸ hj, spmcr := hbits }

theorem fillBuffer_sound {s : State} (h : s.Sound) : (fillBuffer s).Sound := by
  have hindex := State.spmIndex_lt h.device
  have hlo : Space.has s.launch.device .pageBuffer (2 * s.spmIndex) := by
    show 2 * s.spmIndex < 2 * s.launch.device.pageWords
    omega
  have hhi : Space.has s.launch.device .pageBuffer (2 * s.spmIndex + 1) := by
    show 2 * s.spmIndex + 1 < 2 * s.launch.device.pageWords
    omega
  exact h.withMem (Memory.wf_write _ _ _ _ (Memory.wf_write _ _ _ _ h.mem)) ((h.cells.write _ hlo).write _ hhi)

theorem spmAct_sound {s : State} (h : s.Sound) : (spmAct s).Sound := by
  have hpage := State.spmPage_inRange h.device
  unfold spmAct
  split
  · exact closeSpm_sound (fillBuffer_sound h)
  · exact startJob_sound h (j := .erase s.spmPage) hpage
  · exact startJob_sound h (j := .write s.spmPage) hpage
  · exact closeSpm_sound (h.congr rfl)
  · have hbits : (s.spmcr &&& 0xBF#8).getLsbD 5 = false := by simpa using h.spmcr
    exact closeSpm_sound ((h.withMem (Memory.wf_clear _ _ h.mem) (h.cells.clear .pageBuffer)).withSpmcr hbits)
  · exact closeSpm_sound h

theorem spmOperation_sound {s u : State} (h : s.Sound) (hu : spmOperation s = .next u) : u.Sound := by
  unfold spmOperation at hu
  split at hu
  · cases hu
  · split at hu
    · cases hu; exact h
    · split at hu <;> cases hu
      · exact h
      · exact spmAct_sound h
      · exact spmAct_sound h
      · split
        · exact spmAct_sound h
        · exact closeSpm_sound h

/-! ## Turns of the devices -/

/-- The bits of no vector stay as they are when the bit of a vector is written. -/
theorem setIrqBit_low {b : BitVec 22} (h : b.getLsbD 0 = false ∧ b.getLsbD 1 = false) (v : Irq) (x : Bool) :
    (setIrqBit b v.number x).getLsbD 0 = false ∧ (setIrqBit b v.number x).getLsbD 1 = false := by
  have hv : 2 ≤ v.number := by cases v <;> decide
  have h0 : 0 < v.number := by omega
  have h1 : 1 < v.number := by omega
  cases x <;> simpa [setIrqBit, h0, h1] using h

theorem eepromFinish_sound {s : State} (h : s.Sound) : (eepromFinish s).Sound := by
  unfold eepromFinish
  split
  · next w hw =>
    have hm := h.withMem (Memory.wf_write _ .eeprom w.addr w.value h.mem) (h.cells.write _ (h.eeWrite w hw))
    exact { hm with eeWrite := fun _ e => by cases e }
  · exact h

theorem spmFinish_sound {s : State} (h : s.Sound) : (spmFinish s).Sound := by
  unfold spmFinish
  split
  · next j hj => exact closeSpm_sound { finishJob_sound h (h.spmJob j hj) with spmJob := fun _ e => by cases e }
  · exact h

theorem deviceEvent_sound {s : State} (e : DeviceEvent) (h : s.Sound) : (deviceEvent e s).Sound := by
  cases e with
  | eepromDone => exact eepromFinish_sound h
  | spmDone => exact spmFinish_sound h
  | raise v => exact { h with irqFlags := setIrqBit_low h.irqFlags v true }
  | drop v => exact { h with irqFlags := setIrqBit_low h.irqFlags v false }
  | level v on => exact { h with irqLevels := setIrqBit_low h.irqLevels v on }
  | setEnable v on => exact { h with irqEnables := setIrqBit_low h.irqEnables v on }
  | watchdogTick => exact h.congr rfl

/-- A device's turn leaves SPM's window or closes it. -/
theorem deviceEvent_spmWindow (e : DeviceEvent) (s : State) :
    (deviceEvent e s).spmWindow = s.spmWindow ∨ (deviceEvent e s).spmWindow = .closed := by
  cases e with
  | spmDone =>
    show (spmFinish s).spmWindow = _ ∨ (spmFinish s).spmWindow = _
    unfold spmFinish
    split
    · exact .inr rfl
    · exact .inl rfl
  | eepromDone =>
    left
    show (eepromFinish s).spmWindow = _
    unfold eepromFinish
    split <;> rfl
  | raise v => exact .inl rfl
  | drop v => exact .inl rfl
  | level v on => exact .inl rfl
  | setEnable v on => exact .inl rfl
  | watchdogTick => exact .inl rfl

/-! ## The EEPROM -/

theorem eecrWrite_sound {s u : State} {v : Byte} (h : s.Sound) (hu : eecrWrite s v = .next u) : u.Sound := by
  rcases eecrWrite_next hu with rfl | ⟨_, _, rfl⟩ | ⟨_, haddr, rfl⟩
  · exact h.congr rfl
  · exact h.congr rfl
  · exact { h with eeWrite := fun _ e => Option.some.inj e ▸ haddr }

theorem eepromRegWrite_next {s t u : State} (h : eepromRegWrite s t = .next u) : u = t := by
  unfold eepromRegWrite at h
  split at h
  · cases h
  · exact (Host.Outcome.next.inj h).symm

end Sys2Proof.Machine
end

section
/-! SUPPORT. What an instruction can do before its end, over all 74 forms at once: it leaves the pc and the launch
parameters, it keeps the invariant of the middle of an instruction, and it leaves SREG unless it is one of the forms
that 10_state.md R28 names. -/

namespace Sys2Proof.Machine

open Config

/-! ## Answers that have a property -/

/-- If the operation answers, its answer has the property. -/
def Gives {α : Type} (r : Res α) (P : α → Prop) : Prop := ∀ a, r = .next a → P a

theorem Gives.next {α : Type} {P : α → Prop} {a : α} (h : P a) : Gives (.next a) P := by
  rintro _ ⟨⟩
  exact h

theorem Gives.fault {α : Type} {P : α → Prop} {f : Fault} : Gives (.fault f) P := by
  rintro _ ⟨⟩

theorem Gives.refused {α : Type} {P : α → Prop} {f : Refusal} : Gives (.refused f) P := by
  rintro _ ⟨⟩

theorem Gives.andThen {α β : Type} {r : Res α} {k : α → Res β} {P : α → Prop} {Q : β → Prop} (h : Gives r P)
    (hk : ∀ a, P a → Gives (k a) Q) : Gives (andThen r k) Q := by
  intro b hb
  obtain ⟨a, ha, hka⟩ := (andThen_eq_next r k b).1 hb
  exact hk a (h a ha) b hka

/-! ## Effects -/

/-- What the effect of an instruction, before its end, does to the state: the pc and the launch parameters are as
before, SREG too unless `W` holds, and the invariant of the middle of an instruction is kept. -/
structure Effect (W : Prop) (s u : State) : Prop where
  launch : u.launch = s.launch
  pc : u.pc = s.pc
  sreg : u.sreg = s.sreg ∨ W
  sound : s.Sound → u.Sound

section
variable {W : Prop} {s t u : State}

theorem Effect.refl : Effect W s s := ⟨rfl, rfl, .inl rfl, id⟩

theorem Effect.trans (h : Effect W s t) (h' : Effect W t u) : Effect W s u where
  launch := h'.launch.trans h.launch
  pc := h'.pc.trans h.pc
  sreg := by
    rcases h.sreg with e | w
    · rcases h'.sreg with e' | w
      · exact .inl (e'.trans e)
      · exact .inr w
    · exact .inr w
  sound := h'.sound ∘ h.sound

/-- A change of what neither `Effect` nor `State.Sound` speaks of. -/
theorem Effect.congr
    (hu : u = { s with
      regs := u.regs, pcWrapped := u.pcWrapped, eearl := u.eearl, eedr := u.eedr, eerie := u.eerie,
      eeWindow := u.eeWindow, mcucr := u.mcucr, spmWindow := u.spmWindow, lockBits := u.lockBits,
      holdoff := u.holdoff, asleep := u.asleep, watchdog := u.watchdog, ioEvents := u.ioEvents, agenda := u.agenda,
      draws := u.draws }) : Effect W s u where
  launch := by rw [hu]
  pc := by rw [hu]
  sreg := .inl (by rw [hu])
  sound := fun h => h.congr (by rw [hu])

theorem Effect.writeSreg (hW : W) (v : Byte) : Effect W s { s with sreg := v } :=
  ⟨rfl, rfl, .inr hW, fun h => h.congr rfl⟩

theorem Effect.setReg (d : Reg) (v : Byte) : Effect W s (s.setReg d v) := .congr rfl

theorem Effect.setPtr (p : Ptr) (v : Word) : Effect W s (s.setPtr p v) := .congr rfl

theorem Effect.setDataPtr (p : Ptr) (v : Word) : Effect W s (s.setDataPtr p v) := by
  unfold State.setDataPtr
  split
  · exact .setReg _ _
  · exact .setPtr _ _

theorem Effect.setSp (v : Word) : Effect W s (s.setSp v) := ⟨rfl, rfl, .inl rfl, fun h => h.setSp v⟩

theorem Effect.setRampz (v : Byte) : Effect W s (s.setRampz v) := ⟨rfl, rfl, .inl rfl, fun h => h.setRampz v⟩

theorem Effect.setRampzZ (v : BitVec 24) : Effect W s (s.setRampzZ v) := (Effect.setRampz _).trans (.setPtr _ _)

/-! ## The I/O space -/

theorem ioRead_effect (a : IoAddr) : Effect W s (ioRead s a).2 := .congr (by rw [ioRead_state])

theorem writeSreg_effect (hW : W) (v : Byte) : Gives (writeSreg s v) (Effect W s) := by
  unfold Machine.writeSreg
  split
  · exact .refused
  · exact .next (.writeSreg hW v)

theorem eecrWrite_effect (v : Byte) : Gives (eecrWrite s v) (Effect W s) := by
  intro u hu
  have hsound := fun h : s.Sound => eecrWrite_sound h hu
  rcases eecrWrite_next hu with rfl | ⟨_, _, rfl⟩ | ⟨_, _, rfl⟩ <;> exact ⟨rfl, rfl, .inl rfl, hsound⟩

theorem spmcrWrite_effect (v : Byte) : Effect W s (spmcrWrite s v) := by
  have hkeeps : (spmcrWrite s v).launch = s.launch ∧ (spmcrWrite s v).pc = s.pc ∧ (spmcrWrite s v).sreg = s.sreg := by
    unfold spmcrWrite
    split
    · exact ⟨rfl, rfl, rfl⟩
    · split <;> exact ⟨rfl, rfl, rfl⟩
  obtain ⟨hlaunch, hpc, hsreg⟩ := hkeeps
  exact ⟨hlaunch, hpc, .inl hsreg, fun h => spmcrWrite_sound h v⟩

theorem eepromRegWrite_effect (h : Effect W s t) : Gives (eepromRegWrite s t) (Effect W s) := by
  intro u hu
  rwa [eepromRegWrite_next hu]

/-- EEARH as it is written: its upper six bits read 0 (R36). -/
theorem Effect.writeEearh (v : Byte) : Effect W s { s with eearh := v &&& 0x03#8 } where
  launch := rfl
  pc := rfl
  sreg := .inl rfl
  sound := fun h => { h with eearh := toNat_and_lowMask_lt (n := 2) v (by decide) }

/-- A write of the I/O space writes SREG only at SREG's own address. -/
theorem ioWrite_effect {a : IoAddr} (hW : ioReg s.launch a = .sreg → W) (v : Byte) :
    Gives (ioWrite s a v) (Effect W s) := by
  unfold ioWrite
  split
  case h_1 hreg => exact writeSreg_effect (hW hreg) v
  case h_2 => exact .next (.setSp _)
  case h_3 => exact .next (.setSp _)
  case h_4 => exact .next (.setRampz v)
  case h_5 => exact eepromRegWrite_effect (.writeEearh v)
  case h_6 => exact eepromRegWrite_effect (.congr rfl)
  case h_7 => exact eepromRegWrite_effect (.congr rfl)
  case h_8 => exact eecrWrite_effect v
  case h_9 => exact .next (.congr rfl)
  case h_10 => exact .next (spmcrWrite_effect v)
  case h_11 => exact .next (.congr rfl)

/-! ## Devices -/

theorem deviceEvent_effect (e : DeviceEvent) : Effect W s (deviceEvent e s) := by
  have hsound := fun h : s.Sound => deviceEvent_sound e h
  refine ⟨?_, ?_, .inl ?_, hsound⟩ <;> rw [deviceEvent_state]

theorem midTurn_effect : Effect W s (midTurn s) := by
  unfold midTurn
  split
  · exact Effect.trans (.congr rfl) (deviceEvent_effect _)
  · exact .refl

theorem spmOperation_effect : Gives (spmOperation s) (Effect W s) := by
  intro u hu
  have hsound := fun h : s.Sound => spmOperation_sound h hu
  rw [spmOperation_next hu] at hsound ⊢
  exact ⟨rfl, rfl, .inl rfl, hsound⟩

/-! ## The data address space -/

/-- The data address reaches SREG (R59). -/
def ReachesSreg (l : Launch) (a : Word) : Prop := ∃ b, dataPlace l.device a = .io b ∧ ioReg l b = .sreg

theorem memRead_effect (a : Word) : Gives (memRead s a) fun r => Effect W s r.2 := by
  unfold memRead
  split
  · exact .next .refl
  · exact .next (ioRead_effect _)
  · split
    · exact .next .refl
    · exact .fault
  · exact .refused

/-- A data write writes SREG only at a data address that reaches it. -/
theorem memWrite_effect {a : Word} (hW : ReachesSreg s.launch a → W) (v : Byte) :
    Gives (memWrite s a v) (Effect W s) := by
  intro u hu
  rcases memWrite_next hu with ⟨k, _, rfl⟩ | ⟨b, hplace, hio⟩ | ⟨b, hplace, rfl⟩
  · exact .setReg k v
  · exact ioWrite_effect (fun hreg => hW ⟨b, hplace, hreg⟩) v u hio
  · obtain ⟨_, hrange⟩ := dataPlace_sram hplace
    exact ⟨rfl, rfl, .inl rfl, fun h => h.withMem (Memory.wf_write _ _ _ _ h.mem) (h.cells.write v hrange)⟩

/-! ## Loads and stores -/

theorem loadAt_effect (d : Reg) (a : Word) : Gives (loadAt d a s) (Effect W s) :=
  (memRead_effect a).andThen fun _ h => .next (h.trans (.setReg _ _))

theorem loadInc_effect (p : Ptr) (d : Reg) : Gives (loadInc p d s) (Effect W s) := by
  unfold loadInc
  split
  · exact .fault
  · exact (memRead_effect _).andThen fun _ h => .next (h.trans ((Effect.setDataPtr _ _).trans (.setReg _ _)))

theorem loadDec_effect (p : Ptr) (d : Reg) : Gives (loadDec p d s) (Effect W s) := by
  unfold loadDec
  split
  · exact .fault
  · exact fun u hu => (Effect.setDataPtr _ _).trans (loadAt_effect _ _ u hu)

theorem storeAt_effect {a : Word} (r : Reg) (hW : ReachesSreg s.launch a → W) :
    Gives (storeAt r a s) (Effect W s) :=
  memWrite_effect hW _

theorem State.updAddr_post (p : Ptr) : s.updAddr p false = s.dataPtr p := by
  simp [State.updAddr]

theorem State.updAddr_pre (p : Ptr) : s.updAddr p true = s.movedPtr p (-1) := by
  simp [State.updAddr]

theorem storeInc_effect {p : Ptr} (r : Reg) (hW : ReachesSreg s.launch (s.updAddr p false) → W) :
    Gives (storeInc p r s) (Effect W s) := by
  unfold storeInc
  split
  · exact .fault
  · rw [State.updAddr_post] at hW
    exact (storeAt_effect r hW).andThen fun _ h => .next (h.trans (.setDataPtr _ _))

theorem storeDec_effect {p : Ptr} (r : Reg) (hW : ReachesSreg s.launch (s.updAddr p true) → W) :
    Gives (storeDec p r s) (Effect W s) := by
  unfold storeDec
  split
  · exact .fault
  · have hW' : ReachesSreg (s.setDataPtr p (s.movedPtr p (-1))).launch (s.movedPtr p (-1)) → W := by
      rw [State.setDataPtr_launch, ← State.updAddr_pre]
      exact hW
    exact fun u hu => (Effect.setDataPtr _ _).trans (storeAt_effect r hW' u hu)

/-! ## Program memory, the stack, read-modify-write -/

theorem progRead_effect (ba : Nat) : Gives (progRead s ba) fun r => Effect W s r.2 := by
  unfold progRead
  split
  · exact .refused
  · split
    · exact .next (.congr rfl)
    · exact .next .refl

theorem lpmRead_effect (ba : Nat) : Gives (lpmRead s ba) fun r => Effect W s r.2 := by
  unfold lpmRead
  split
  · exact .refused
  · split
    · exact .next (.congr rfl)
    · exact progRead_effect ba

theorem loadProg_effect (d : Reg) : Gives (loadProg d s) (Effect W s) :=
  (lpmRead_effect _).andThen fun _ h => .next (h.trans (.setReg _ _))

theorem loadProgInc_effect (d : Reg) : Gives (loadProgInc d s) (Effect W s) := by
  unfold loadProgInc
  split
  · exact .fault
  · exact (lpmRead_effect _).andThen fun _ h => .next (h.trans ((Effect.setPtr _ _).trans (.setReg _ _)))

theorem loadProgExt_effect (d : Reg) : Gives (loadProgExt d s) (Effect W s) :=
  (progRead_effect _).andThen fun _ h => .next (h.trans (.setReg _ _))

theorem loadProgExtInc_effect (d : Reg) : Gives (loadProgExtInc d s) (Effect W s) := by
  unfold loadProgExtInc
  split
  · exact .fault
  · exact (progRead_effect _).andThen fun _ h => .next (h.trans ((Effect.setRampzZ _).trans (.setReg _ _)))

theorem pushByte_effect (hW : ReachesSreg s.launch s.sp → W) (v : Byte) : Gives (pushByte s v) (Effect W s) :=
  (memWrite_effect hW v).andThen fun _ h => .next (h.trans (.setSp _))

theorem popByte_effect : Gives (popByte s) fun r => Effect W s r.2 :=
  fun r hr => (Effect.setSp _).trans (memRead_effect _ r hr)

theorem changeIoBit_effect {a : IoAddr} (hW : ioReg s.launch a = .sreg → W) (b : BitNum) (x : Bool) :
    Gives (changeIoBit a b x s) (Effect W s) := by
  have hread : Effect W s (midTurn (ioRead s a).2) := (ioRead_effect a).trans midTurn_effect
  exact fun u hu => hread.trans (ioWrite_effect (by rwa [hread.launch]) _ u hu)

theorem exchange_effect {a : Word} (d : Reg) (hW : ReachesSreg s.launch a → W) :
    Gives (exchange d a s) (Effect W s) :=
  (memRead_effect a).andThen fun _ h =>
    have hread : Effect W s _ := h.trans midTurn_effect
    Gives.andThen (fun u hu => hread.trans (memWrite_effect (by rwa [hread.launch]) _ u hu))
      fun _ h' => .next (h'.trans (.setReg _ _))

end

/-! ## The end of an instruction -/

/-- An effect, then the end of an instruction of `n` words; the hold-off, the sleep state and the watchdog counter are
then as the instruction has it. -/
def Ends (W : Prop) (n : Nat) (s t : State) : Prop :=
  ∃ u, Effect W s u ∧
    t = { retire n u with holdoff := t.holdoff, asleep := t.asleep, watchdog := t.watchdog }

section
variable {W : Prop} {n : Nat} {s t u : State}

theorem Ends.retire (h : Effect W s u) : Ends W n s (retire n u) := ⟨u, h, rfl⟩

theorem Gives.finish {r : Res State} (h : Gives r (Effect W s)) : Gives (finish n r) (Ends W n s) :=
  h.andThen fun _ hu => .next (.retire hu)

theorem setSregBit_ends (hW : W) (b : BitNum) : Gives (setSregBit b s) (Ends W 1 s) := by
  unfold setSregBit
  split
  · exact (writeSreg_effect hW _).andThen fun u hu => .next ⟨u, hu, rfl⟩
  · exact .next (.retire (.writeSreg hW _))

theorem clearSregBit_ends (hW : W) (b : BitNum) : Gives (clearSregBit b s) (Ends W 1 s) :=
  .next (.retire (.writeSreg hW _))

theorem shiftLeft_ends (hW : W) (d : Reg) (r : Byte) : Gives (shiftLeft d r s) (Ends W 1 s) :=
  .next (.retire ((Effect.setReg d r).trans (.writeSreg hW _)))

theorem shiftRight_ends (hW : W) (d : Reg) (r : Byte) : Gives (shiftRight d r s) (Ends W 1 s) :=
  .next (.retire ((Effect.setReg d r).trans (.writeSreg hW _)))

theorem execXch_ends {d : Reg} (hW : ReachesSreg s.launch (s.dataPtr .Z) → W) :
    Gives (execXch d s) (Ends W 1 s) := by
  unfold execXch
  split
  · exact .fault
  · exact .finish (exchange_effect d hW)

theorem execSpmZInc_ends : Gives (execSpmZInc s) (Ends W 1 s) :=
  .finish (spmOperation_effect.andThen fun _ h => .next (h.trans (.setPtr _ _)))

theorem execPop_ends (d : Reg) : Gives (execPop d s) (Ends W 1 s) :=
  .finish (popByte_effect.andThen fun _ h => .next (h.trans (.setReg _ _)))

theorem execBrk_ends : Gives (execBrk s) (Ends W 1 s) := by
  unfold execBrk
  split
  · exact .next (.retire .refl)
  · exact .fault
  · exact .refused

theorem execSleep_ends : Gives (execSleep s) (Ends W 1 s) := by
  unfold execSleep
  split
  · split
    · exact .next ⟨s, .refl, rfl⟩
    · exact .next (.retire .refl)
  · exact .next (.retire .refl)
  · exact .next ⟨s, .refl, rfl⟩
  · exact .refused

theorem Ends.launch (h : Ends W n s t) : t.launch = s.launch := by
  obtain ⟨u, hu, ht⟩ := h
  rw [ht]
  exact hu.launch

theorem Ends.pc (h : Ends W n s t) :
    t.pc.toNat = (s.pc.toNat + n) % 2 ^ s.launch.device.pcBits % 65536 := by
  obtain ⟨u, hu, ht⟩ := h
  rw [ht]
  show (Machine.retire n u).pc.toNat = _
  rw [retire_pc, BitVec.toNat_ofNat, hu.pc, hu.launch]

theorem Ends.sreg (h : Ends W n s t) : t.sreg = s.sreg ∨ W := by
  obtain ⟨u, hu, ht⟩ := h
  rw [ht]
  exact hu.sreg

theorem Window.age_ne_armed (w : Window) : w.age ≠ .armed := by
  cases w <;> decide

/-- The end of an instruction leaves the pc below 2^PC_BITS (R24, R25). -/
theorem State.Sound.retire (h : s.Sound) (n : Nat) : (retire n s).Sound :=
  { h with pc := toNat_ofNat_mod_two_pow_lt _ _ }

theorem Ends.inv (h : Ends W n s t) (hs : s.Inv) : t.Inv := by
  obtain ⟨u, hu, ht⟩ := h
  obtain ⟨hsound, _, _⟩ := s.inv_iff.1 hs
  rw [ht, State.inv_iff]
  exact ⟨((hu.sound hsound).retire n).congr rfl, Window.age_ne_armed _, Window.age_ne_armed _⟩

end

/-! ## The instructions -/

/-- The instructions that can write SREG in a state (R28): the set and clear forms, BST and the shifts; OUT, SBI and CBI
at SREG's I/O address; the stores, PUSH and XCH at a data address that reaches SREG. -/
def SregWriter (s : State) (i : Instr) : Prop :=
  (setsFlag i ≠ none ∨ clearsFlag i ≠ none ∨ (∃ r b, i = .bst r b) ∨
      ∃ d, i = .lsl d ∨ i = .lsr d ∨ i = .rol d ∨ i = .ror d ∨ i = .asr d) ∨
    (∃ a, ((∃ r, i = .out a r) ∨ (∃ b, i = .sbi a b) ∨ ∃ b, i = .cbi a b) ∧ ioReg s.launch a = .sreg) ∨
    ∃ a b, ((∃ r, storeForm s i = some (r, a)) ∨ (∃ p pre r, updStoreForm i = some (p, pre, r) ∧ a = s.updAddr p pre) ∨
        (∃ r, i = .push r ∧ a = s.sp) ∨ ∃ d, i = .xch d ∧ a = s.dataPtr .Z) ∧
      dataPlace s.launch.device a = .io b ∧ ioReg s.launch b = .sreg

section
variable {s : State} {i : Instr}

theorem SregWriter.of_setsFlag {b : BitNum} (h : setsFlag i = some b) : SregWriter s i :=
  .inl (.inl (by simp [h]))

theorem SregWriter.of_clearsFlag {b : BitNum} (h : clearsFlag i = some b) : SregWriter s i :=
  .inl (.inr (.inl (by simp [h])))

theorem SregWriter.of_bst (r : Reg) (b : BitNum) : SregWriter s (.bst r b) :=
  .inl (.inr (.inr (.inl ⟨r, b, rfl⟩)))

theorem SregWriter.of_shift (d : Reg) (h : i = .lsl d ∨ i = .lsr d ∨ i = .rol d ∨ i = .ror d ∨ i = .asr d) :
    SregWriter s i :=
  .inl (.inr (.inr (.inr ⟨d, h⟩)))

theorem SregWriter.of_io {a : IoAddr} (h : (∃ r, i = .out a r) ∨ (∃ b, i = .sbi a b) ∨ ∃ b, i = .cbi a b)
    (ha : ioReg s.launch a = .sreg) : SregWriter s i :=
  .inr (.inl ⟨a, h, ha⟩)

theorem SregWriter.of_storeForm {r : Reg} {a : Word} (h : storeForm s i = some (r, a))
    (ha : ReachesSreg s.launch a) : SregWriter s i := by
  obtain ⟨b, hplace, hreg⟩ := ha
  exact .inr (.inr ⟨a, b, .inl ⟨r, h⟩, hplace, hreg⟩)

theorem SregWriter.of_updStoreForm {p : Ptr} {pre : Bool} {r : Reg} (h : updStoreForm i = some (p, pre, r))
    (ha : ReachesSreg s.launch (s.updAddr p pre)) : SregWriter s i := by
  obtain ⟨b, hplace, hreg⟩ := ha
  exact .inr (.inr ⟨_, b, .inr (.inl ⟨p, pre, r, h, rfl⟩), hplace, hreg⟩)

theorem SregWriter.of_push {r : Reg} (ha : ReachesSreg s.launch s.sp) : SregWriter s (.push r) := by
  obtain ⟨b, hplace, hreg⟩ := ha
  exact .inr (.inr ⟨_, b, .inr (.inr (.inl ⟨r, rfl, rfl⟩)), hplace, hreg⟩)

theorem SregWriter.of_xch {d : Reg} (ha : ReachesSreg s.launch (s.dataPtr .Z)) : SregWriter s (.xch d) := by
  obtain ⟨b, hplace, hreg⟩ := ha
  exact .inr (.inr ⟨_, b, .inr (.inr (.inr ⟨d, rfl, rfl⟩)), hplace, hreg⟩)

/-- The forms that set a bit of SREG have one meaning (R177, R183 to R197). -/
theorem exec_of_setsFlag {b : BitNum} (h : setsFlag i = some b) : exec i s = setSregBit b s := by
  cases i with
  | bset b | sec | sez | sen | sev | ses | seh | setT | sei => cases h; rfl
  | _ => cases h

/-- The forms that clear a bit of SREG have one meaning (R178, R184 to R198). -/
theorem exec_of_clearsFlag {b : BitNum} (h : clearsFlag i = some b) : exec i s = clearSregBit b s := by
  cases i with
  | bclr b | clc | clz | cln | clv | cls | clh | clt | cli => cases h; rfl
  | _ => cases h

theorem setsFlag_ends {b : BitNum} (h : setsFlag i = some b) : Gives (exec i s) (Ends (SregWriter s i) 1 s) := by
  rw [exec_of_setsFlag h]
  exact setSregBit_ends (.of_setsFlag h) b

theorem clearsFlag_ends {b : BitNum} (h : clearsFlag i = some b) :
    Gives (exec i s) (Ends (SregWriter s i) 1 s) := by
  rw [exec_of_clearsFlag h]
  exact clearSregBit_ends (.of_clearsFlag h) b

end

/-- What every instruction does, when it completes: an effect that writes SREG only where R28 says so, then the end of
an instruction of its length. -/
theorem exec_ends (i : Instr) (s : State) : Gives (exec i s) (Ends (SregWriter s i) i.words s) := by
  cases i with
  | mov d r => exact .next (.retire (.setReg _ _))
  | movw d r => exact .next (.retire ((Effect.setReg _ _).trans (.setReg _ _)))
  | ldi d k | swap d | bld d b => exact .next (.retire (.setReg _ _))
  | lds d k | lds16 d k | ldX d | ldY d | ldZ d | lddY d q | lddZ d q => exact .finish (loadAt_effect _ _)
  | ldXInc d | ldYInc d | ldZInc d => exact .finish (loadInc_effect _ _)
  | ldXDec d | ldYDec d | ldZDec d => exact .finish (loadDec_effect _ _)
  | sts k r | sts16 k r | stX r | stY r | stZ r | stdY q r | stdZ q r =>
    exact .finish (storeAt_effect r (.of_storeForm rfl))
  | stXInc r | stYInc r | stZInc r => exact .finish (storeInc_effect r (.of_updStoreForm rfl))
  | stXDec r | stYDec r | stZDec r => exact .finish (storeDec_effect r (.of_updStoreForm rfl))
  | lpm | lpmZ d => exact .finish (loadProg_effect _)
  | lpmZInc d => exact .finish (loadProgInc_effect _)
  | elpm | elpmZ d => exact .finish (loadProgExt_effect _)
  | elpmZInc d => exact .finish (loadProgExtInc_effect _)
  | spm => exact .finish spmOperation_effect
  | spmZInc => exact execSpmZInc_ends
  | inp d a => exact .next (.retire ((ioRead_effect _).trans (.setReg _ _)))
  | out a r => exact .finish (ioWrite_effect (.of_io (.inl ⟨r, rfl⟩)) _)
  | sbi a b => exact .finish (changeIoBit_effect (.of_io (.inr (.inl ⟨b, rfl⟩))) _ _)
  | cbi a b => exact .finish (changeIoBit_effect (.of_io (.inr (.inr ⟨b, rfl⟩))) _ _)
  | push r => exact .finish (pushByte_effect .of_push _)
  | pop d => exact execPop_ends d
  | xch d => exact execXch_ends .of_xch
  | lsl d | rol d => exact shiftLeft_ends (.of_shift d (by simp)) _ _
  | lsr d | ror d | asr d => exact shiftRight_ends (.of_shift d (by simp)) _ _
  | bst r b => exact .next (.retire (.writeSreg (.of_bst r b) _))
  | bset b | sec | sez | sen | sev | ses | seh | setT | sei => exact setsFlag_ends rfl
  | bclr b | clc | clz | cln | clv | cls | clh | clt | cli => exact clearsFlag_ends rfl
  | brk => exact execBrk_ends
  | nop => exact .next (.retire .refl)
  | sleep => exact execSleep_ends
  | wdr => exact .next ⟨s, .refl, rfl⟩

end Sys2Proof.Machine
end

section
/-! SUPPORT. Every turn of a step keeps the invariant: the turn of the core, the entry of an interrupt, the turn of a
device, and a reset. -/

namespace Sys2Proof.Machine

open Config

theorem Window.interrupted_ne_armed (w : Window) : w.interrupted ≠ .armed := by
  cases w <;> decide

/-- The invariant of the middle of an instruction after the jump to a vector. -/
theorem State.Sound.atVector {s : State} (h : s.Sound) (v : Irq) : (s.atVector v).Sound := by
  have hflags : (s.atVector v).irqFlags.getLsbD 0 = false ∧ (s.atVector v).irqFlags.getLsbD 1 = false := by
    rw [State.atVector_irqFlags]
    split
    · exact setIrqBit_low h.irqFlags v false
    · exact h.irqFlags
  exact { h with pc := toNat_ofNat_mod_two_pow_lt _ _, irqFlags := hflags }

/-- The entry of an interrupt: its two pushes may reach EECR or SPMCR, whose windows are over at the vector. -/
theorem enterInterrupt_inv {v : Irq} {s t : State} (hs : s.Inv) (h : enterInterrupt v s = .next t) :
    t.Inv ∧ t.launch = s.launch := by
  obtain ⟨u1, u2, hlow, hhigh, rfl⟩ := enterInterrupt_next h
  obtain ⟨hsound, _, _⟩ := s.inv_iff.1 hs
  have hentry : Effect True s s.enterHandler := ⟨rfl, rfl, .inr trivial, fun h => h.congr rfl⟩
  have hfirst : Effect True s (u1.setSp (u1.sp - 1)) :=
    (hentry.trans (memWrite_effect (fun _ => trivial) _ u1 hlow)).trans (.setSp _)
  have hboth : Effect True s (u2.setSp (u2.sp - 1)) :=
    (hfirst.trans (memWrite_effect (fun _ => trivial) _ u2 hhigh)).trans (.setSp _)
  refine ⟨(State.inv_iff _).2 ⟨(hboth.sound hsound).atVector v, ?_, ?_⟩, hboth.launch⟩
  · exact Window.interrupted_ne_armed _
  · exact Window.interrupted_ne_armed _

theorem coreTurn_inv {s t : State} (hs : s.Inv) (h : coreTurn s = .next t) : t.Inv ∧ t.launch = s.launch := by
  rcases coreTurn_next h with ⟨_, rfl⟩ | ⟨_, i, _, hexec⟩
  · exact ⟨hs, rfl⟩
  · have hends := exec_ends i s t hexec
    exact ⟨hends.inv hs, hends.launch⟩

theorem deliver_inv {s t : State} (hs : s.Inv) (h : deliver s = .next t) : t.Inv ∧ t.launch = s.launch := by
  rcases deliver_next h with ⟨v, _, hentry⟩ | ⟨_, rfl⟩
  · exact enterInterrupt_inv hs hentry
  · exact ⟨hs, rfl⟩

theorem deviceEvent_inv {s : State} (e : DeviceEvent) (hs : s.Inv) :
    (deviceEvent e s).Inv ∧ (deviceEvent e s).launch = s.launch := by
  obtain ⟨hsound, hee, hspm⟩ := s.inv_iff.1 hs
  have heffect : Effect True s (deviceEvent e s) := deviceEvent_effect e
  refine ⟨(State.inv_iff _).2 ⟨heffect.sound hsound, ?_, ?_⟩, heffect.launch⟩
  · rw [deviceEvent_state]
    exact hee
  · rcases deviceEvent_spmWindow e s with hw | hw <;> rw [hw]
    · exact hspm
    · decide

/-- The values of `State.reset` meet the invariant of the middle of an instruction. -/
theorem reset_sound : State.reset.Sound where
  device := by decide
  mem := Memory.wf_reset
  cells := by rintro (_ | _ | _ | _) c ⟨⟩
  eeWrite := nofun
  spmJob := nofun
  pc := by decide
  sp := by decide
  rampz := by decide
  eearh := by decide
  spmcr := by decide
  irqFlags := by decide
  irqLevels := by decide
  irqEnables := by decide

theorem reset_inv : State.reset.Inv := (State.inv_iff _).2 ⟨reset_sound, by decide, by decide⟩

/-- What an operation in progress was writing is written inside its memory (R262; log 23). -/
theorem memAfterReset_inRange (c : ResetCause) {s : State} (h : s.Sound) :
    (memAfterReset c s).InRange s.launch.device := by
  have heeprom : ∀ m : Memory, m.InRange s.launch.device → (match s.eeWrite with
      | some w => m.write .eeprom w.addr (interruptedByte s.draws)
      | none => m).InRange s.launch.device := by
    intro m hm
    split
    · next w hw => exact hm.write (sp := .eeprom) _ (h.eeWrite w hw)
    · exact hm
  have hsram : (if c = ResetCause.powerOn then s.mem.setCells .sram [] else s.mem).InRange s.launch.device := by
    split
    · exact h.cells.clear _
    · exact h.cells
  refine Memory.InRange.clear ?_ _
  split
  · next b hb => exact (heeprom _ hsram).writePage (j := .erase b) (h.spmJob _ hb) _
  · next b hb => exact (heeprom _ hsram).writePage (j := .write b) (h.spmJob _ hb) _
  · exact heeprom _ hsram

/-- A write that a reset interrupted keeps its address (R41; log 23). -/
theorem eeWrite_takeReset {c : ResetCause} {s : State} {w : EepromWrite} (hc : s.resets c = true)
    (h : (takeReset c s).eeWrite = some w) : ∃ w', s.eeWrite = some w' ∧ w.addr = w'.addr := by
  rw [takeReset, if_pos hc] at h
  dsimp only at h
  split at h
  · next w' hw' =>
    split at h <;> cases h
    exact ⟨w', hw', rfl⟩
  · cases h

theorem takeReset_sound {c : ResetCause} {s : State} (hc : s.resets c = true) (h : s.Sound) :
    (takeReset c s).Sound := by
  have heeWrite : ∀ w, (takeReset c s).eeWrite = some w → w.addr < s.launch.device.eepromBytes := by
    intro w hw
    obtain ⟨w', hw', haddr⟩ := eeWrite_takeReset hc hw
    exact haddr ▸ h.eeWrite w' hw'
  have hpos : ∀ n : Nat, 0 < 2 ^ n := Nat.two_pow_pos
  have heearh : (highByte (resetEear s.draws) &&& 0x03#8).toNat < 4 := toNat_and_lowMask_lt (n := 2) _ (by decide)
  rw [takeReset, if_pos hc] at heeWrite ⊢
  exact ⟨h.device, memAfterReset_wf c s h.mem, memAfterReset_inRange c h, heeWrite, nofun, hpos _, hpos _, hpos _,
    heearh, reset_sound.spmcr, reset_sound.irqFlags, h.irqLevels, reset_sound.irqEnables⟩

theorem takeReset_inv (c : ResetCause) {s : State} (hs : s.Inv) :
    (takeReset c s).Inv ∧ (takeReset c s).launch = s.launch := by
  obtain ⟨hsound, _, _⟩ := s.inv_iff.1 hs
  by_cases hc : s.resets c = true
  · have hreset := takeReset_sound hc hsound
    rw [takeReset, if_pos hc] at hreset ⊢
    exact ⟨(State.inv_iff _).2 ⟨hreset, reset_inv.eeWindow, reset_inv.spmWindow⟩, rfl⟩
  · rw [takeReset, if_neg hc]
    exact ⟨hs, rfl⟩

theorem State.Inv.withAgenda {s : State} (h : s.Inv) (rest : List Turn) : State.Inv { s with agenda := rest } :=
  { h with }

theorem step_inv {s t : State} (hs : s.Inv) (h : step s = .next t) : t.Inv ∧ t.launch = s.launch := by
  obtain ⟨_, ⟨v, _, _, hentry⟩ | ⟨_, _, hcore⟩ | ⟨rest, _, hcore⟩ | ⟨rest, _, hdeliver⟩ | ⟨e, rest, _, rfl⟩ |
    ⟨c, rest, _, rfl⟩⟩ := step_next h
  · exact enterInterrupt_inv hs hentry
  · exact coreTurn_inv hs hcore
  · exact coreTurn_inv (s := { s with agenda := rest }) (hs.withAgenda rest) hcore
  · exact deliver_inv (s := { s with agenda := rest }) (hs.withAgenda rest) hdeliver
  · exact deviceEvent_inv e (hs.withAgenda rest)
  · exact takeReset_inv c (hs.withAgenda rest)

end Sys2Proof.Machine
end

section
/-! SUPPORT. A pointer and its two registers (10_state.md R22). -/

namespace Sys2Proof.Machine

/-- A write of one half of a pointer is seen in that half, and the other half is kept (R22). -/
theorem ptr_setReg_half (s : State) (p : Ptr) (v : Byte) :
    (s.setReg p.lo v).ptr p = s.reg p.hi ++ v ∧ (s.setReg p.hi v).ptr p = v ++ s.reg p.lo := by
  have hne : p.hi ≠ p.lo := by cases p <;> decide
  simp [State.ptr, joinBytes, State.reg_setReg_other _ _ hne, State.reg_setReg_other _ _ hne.symm]

/-- A write of a pointer writes its low byte to the even and its high byte to the odd register, and no other (R22). -/
theorem setPtr_halves (s : State) (p : Ptr) (v : Word) :
    (s.setPtr p v).reg p.lo = v.extractLsb' 0 8 ∧ (s.setPtr p v).reg p.hi = v.extractLsb' 8 8 ∧
      SameRegsBut [p.lo, p.hi] s (s.setPtr p v) := by
  have hne : p.lo ≠ p.hi := by cases p <;> decide
  refine ⟨?_, ?_, fun j hj => ?_⟩
  · rw [State.setPtr, State.reg_setReg_other _ _ hne, State.reg_setReg_same]
    rfl
  · rw [State.setPtr, State.reg_setReg_same]
    rfl
  · simp only [List.mem_cons, List.not_mem_nil, or_false, not_or] at hj
    obtain ⟨hlo, hhi⟩ := hj
    exact State.reg_setPtr_other s p v hlo hhi

end Sys2Proof.Machine
end

section
/-! SUPPORT. What a write of the EEPROM's registers leaves unchanged. -/

namespace Sys2Proof.Machine

theorem retire_advanced (n : Nat) (s : State) : Advanced n s (retire n s) := by
  refine ⟨?_, ?_, rfl⟩
  · rw [retire_pc, BitVec.toNat_ofNat]
  · rw [retire_pcWrapped, decide_eq_true_eq]

/-- Only the EEPROM's registers, its window and its write in progress may differ. -/
def EepromOnly (s u : State) : Prop :=
  u = { s with
    eearh := u.eearh, eearl := u.eearl, eedr := u.eedr, eerie := u.eerie, eeWindow := u.eeWindow,
    eeWrite := u.eeWrite }

/-- The frame of an instruction of one word that writes the EEPROM's registers. -/
theorem EepromOnly.retire_frame {s u : State} (h : EepromOnly s u) :
    SameRegsBut [] s (retire 1 u) ∧ (retire 1 u).sreg = s.sreg ∧ SameMem s (retire 1 u) ∧
      SameStack s (retire 1 u) ∧ SameSpm s (retire 1 u) ∧ SameControl s (retire 1 u) ∧
      (retire 1 u).ioEvents = s.ioEvents ∧ Advanced 1 s (retire 1 u) ∧
      (retire 1 u).spmWindow = s.spmWindow.age := by
  rw [h]
  exact ⟨fun _ _ => rfl, rfl, fun _ _ => rfl, ⟨rfl, rfl⟩, ⟨rfl, rfl, rfl⟩, ⟨rfl, rfl, rfl, rfl, rfl, rfl, rfl, rfl⟩,
    rfl, retire_advanced 1 _, rfl⟩

/-- As `retire_frame`, where the window is left alone. -/
theorem EepromOnly.retire_ended {s u : State} (h : EepromOnly s u) (hw : u.eeWindow = s.eeWindow) :
    SameRegsBut [] s (retire 1 u) ∧ (retire 1 u).sreg = s.sreg ∧ SameMem s (retire 1 u) ∧
      SameStack s (retire 1 u) ∧ SameSpm s (retire 1 u) ∧ SameControl s (retire 1 u) ∧
      (retire 1 u).ioEvents = s.ioEvents ∧ Ended 1 s (retire 1 u) := by
  obtain ⟨hregs, hsreg, hmem, hstack, hspm, hcontrol, hevents, hadvanced, hwindow⟩ := h.retire_frame
  exact ⟨hregs, hsreg, hmem, hstack, hspm, hcontrol, hevents, hadvanced, by rw [retire_eeWindow, hw], hwindow⟩

/-- OUT writes the register's byte to the I/O space, then ends (R161). -/
theorem exec_out (a : IoAddr) (r : Reg) (s : State) : exec (.out a r) s = finish 1 (ioWrite s a (s.reg r)) := rfl

/-- OUT to one of EEARH, EEARL and EEDR, with no write in progress, ends with that register written. -/
theorem exec_out_eepromReg {a : IoAddr} {r : Reg} {s u : State}
    (hio : ioWrite s a (s.reg r) = eepromRegWrite s u) (hw : s.eeWrite = none) :
    exec (.out a r) s = .next (retire 1 u) := by
  rw [exec_out, hio, eepromRegWrite, if_neg (by simp [hw])]
  rfl

/-- OUT to one of EEARH, EEARL and EEDR while a write is in progress (R242). -/
theorem exec_out_eepromReg_busy {a : IoAddr} {r : Reg} {s u : State}
    (hio : ioWrite s a (s.reg r) = eepromRegWrite s u) (hw : s.eeWrite.isSome = true) :
    exec (.out a r) s = .fault .eepromMisuse := by
  rw [exec_out, hio, eepromRegWrite, if_pos hw]
  rfl

/-- OUT to EECR, where its write answers. -/
theorem exec_out_eecr {a : IoAddr} {r : Reg} {s u : State} (hreg : ioReg s.launch a = .eecr)
    (hwrite : eecrWrite s (s.reg r) = .next u) : exec (.out a r) s = .next (retire 1 u) := by
  have hio : ioWrite s a (s.reg r) = eecrWrite s (s.reg r) := by rw [ioWrite, hreg]
  rw [exec_out, hio, hwrite]
  rfl

/-- The two low bits of a byte, as the mask keeps them and as a field. -/
theorem and_three_eq_append (v : Byte) : v &&& 0x03#8 = 0#6 ++ v.extractLsb' 0 2 := by
  revert v
  decide

/-- A write of EECR with EERE = 0 that starts no write sets EERIE and the window, and nothing else (R241, R242, R244). -/
theorem eecrWrite_bits {s : State} {v : Byte} (hread : v.getLsbD 0 = false)
    (hstart : v.getLsbD 1 = false ∨ s.eeWrite.isSome = true ∨ s.eeWindow = .closed ∧ v.getLsbD 2 = false) :
    eecrWrite s v =
      .next { s with eerie := v.getLsbD 3, eeWindow := if v.getLsbD 2 then .armed else .closed } := by
  simp only [eecrWrite, hread, Bool.false_eq_true, false_and, if_false]
  rcases hstart with hidle | hbusy | ⟨hclosed, hshut⟩
  · simp only [hidle, Bool.false_eq_true, if_false]
  · simp only [hbusy, if_true, ite_self]
  · simp only [hclosed, hshut, Bool.false_eq_true, if_false, ite_self]

/-- EEWE starts the write where no SPM operation runs and the EEPROM has the address (R242, R245). -/
theorem eepromWriteStart_eq {s : State} (hjob : s.spmJob = none)
    (haddr : s.eepromAddr < s.launch.device.eepromBytes) :
    eepromWriteStart s =
      .next { s with eeWrite := some { addr := s.eepromAddr, value := s.eedr }, eeWindow := .closed } := by
  have hidle : ¬ s.spmJob.isSome = true := by simp [hjob]
  rw [eepromWriteStart, if_neg hidle, if_pos haddr]

/-- A write of EECR with EEWE = 1 while the window is open starts the EEPROM write (R242). -/
theorem eecrWrite_start {s : State} {v : Byte} (hread : v.getLsbD 0 = false) (hstart : v.getLsbD 1 = true)
    (hidle : s.eeWrite = none) (hopen : s.eeWindow = .open) (hjob : s.spmJob = none)
    (haddr : s.eepromAddr < s.launch.device.eepromBytes) :
    eecrWrite s v =
      .next { s with
        eerie := v.getLsbD 3, eeWindow := .closed, eeWrite := some { addr := s.eepromAddr, value := s.eedr } } := by
  simp only [eecrWrite, hread, hstart, hidle, hopen, Option.isSome_none, Bool.false_eq_true, false_and, if_false,
    if_true]
  exact eepromWriteStart_eq hjob haddr

end Sys2Proof.Machine
end

section
/-! The obligations about the state: reset, the invariant, the pointers, the EEPROM's registers, the pc and SREG. -/

namespace Sys2Proof.Proofs

open Machine

/-- Settles O3, through the invariant of the middle of an instruction: every effect keeps it, and the end of an
instruction or the jump to a vector ends the timed unlock bits. -/
theorem stepKeepsInv : Obligations.StepKeepsInv := by
  unfold Obligations.StepKeepsInv
  intro s t hs hstep
  exact step_inv hs hstep

/-- Settles O8, by the laws of reading a register after a write. -/
theorem pointersAreViews : Obligations.PointersAreViews := by
  unfold Obligations.PointersAreViews
  intro s
  exact ⟨⟨rfl, rfl, rfl⟩, ptr_setReg_half s .X, ptr_setReg_half s .Y, ptr_setReg_half s .Z, setPtr_halves s .X,
    setPtr_halves s .Y, setPtr_halves s .Z⟩

/-- Settles O36: each of the three registers by the one rule of OUT to an EEPROM register. -/
theorem eepromRegistersWritten : Obligations.EepromRegistersWritten := by
  unfold Obligations.EepromRegistersWritten
  intro a r s
  constructor
  · intro hbusy hreg
    rcases hreg with hreg | hreg | hreg <;>
      exact exec_out_eepromReg_busy (by rw [ioWrite, hreg]) hbusy
  · intro hidle hreg
    rcases hreg with hreg | hreg | hreg
    · have hout := exec_out_eepromReg (u := { s with eearh := s.reg r &&& 0x03#8 }) (by rw [ioWrite, hreg]) hidle
      exact ⟨_, hout, by simp [hreg, and_three_eq_append], by simp [hreg], by simp [hreg], rfl, rfl,
        EepromOnly.retire_ended rfl rfl⟩
    · have hout := exec_out_eepromReg (u := { s with eearl := s.reg r }) (by rw [ioWrite, hreg]) hidle
      exact ⟨_, hout, by simp [hreg], by simp [hreg], by simp [hreg], rfl, rfl, EepromOnly.retire_ended rfl rfl⟩
    · have hout := exec_out_eepromReg (u := { s with eedr := s.reg r }) (by rw [ioWrite, hreg]) hidle
      exact ⟨_, hout, by simp [hreg], by simp [hreg], by simp [hreg], rfl, rfl, EepromOnly.retire_ended rfl rfl⟩

/-- Settles O38: the two answers of a write of EECR with EERE = 0 that does not stop. -/
theorem eecrWritten : Obligations.EecrWritten := by
  unfold Obligations.EecrWritten
  constructor
  · intro a r s hreg hread hstart
    have hout := exec_out_eecr hreg (eecrWrite_bits hread hstart)
    refine ⟨_, hout, rfl, ?_, rfl, rfl, rfl, rfl, EepromOnly.retire_frame rfl⟩
    rw [retire_eeWindow]
    split <;> rfl
  · intro a r s hreg hread hstart hidle hopen hjob haddr
    have hout := exec_out_eecr hreg (eecrWrite_start hread hstart hidle hopen hjob haddr)
    exact ⟨_, hout, rfl, rfl, rfl, rfl, rfl, rfl, EepromOnly.retire_frame rfl⟩

/-- Settles O57: the effect leaves the pc, and the end advances it by the instruction's length. -/
theorem pcAdvances : Obligations.PcAdvances := by
  unfold Obligations.PcAdvances
  intro i s t hexec
  have hpc := (exec_ends i s t hexec).pc
  cases i <;> exact hpc

/-- Settles O58. A device's turn between two accesses does not write SREG either. -/
theorem sregWriters : Obligations.SregWriters := by
  unfold Obligations.SregWriters
  intro i s t _ hexec hsreg
  exact (exec_ends i s t hexec).sreg.resolve_left hsreg

/-- Settles O1: each value is that of `State.reset`, whose SRAM lists nothing. -/
theorem resetValues : Obligations.ResetValues := by
  unfold Obligations.ResetValues
  exact ⟨rfl, rfl, rfl, rfl, rfl, rfl, rfl, rfl, rfl, rfl, fun _ => rfl⟩

/-- Settles O2, clause by clause on the values of `State.reset`. -/
theorem invAtReset : Obligations.InvAtReset := by
  unfold Obligations.InvAtReset
  exact reset_inv

end Sys2Proof.Proofs
end

section
/-! SUPPORT. Program memory as bytes and as words (20_memory.md R53, R54), and the instruction at the pc as `decode`
finds it in the bytes there. -/

namespace Sys2Proof.Machine

open Config

/-! ## Bytes and words -/

theorem Memory.progWord_eq_joinBytes (m : Memory) (wa : Nat) :
    m.progWord wa = joinBytes (m.byte .flash (2 * wa + 1)) (m.byte .flash (2 * wa)) := rfl

theorem Memory.lowByte_progWord (m : Memory) (wa : Nat) : lowByte (m.progWord wa) = m.byte .flash (2 * wa) :=
  lowByte_joinBytes _ _

theorem Memory.highByte_progWord (m : Memory) (wa : Nat) : highByte (m.progWord wa) = m.byte .flash (2 * wa + 1) :=
  highByte_joinBytes _ _

theorem Memory.byte_write (m : Memory) (sp : Space) (a b : Nat) (v : Byte) :
    (m.write sp a v).byte sp b = if a = b then v else m.byte sp b := by
  rw [Memory.byte, Memory.read_write]
  by_cases hab : a = b
  · simp [hab]
  · simp [hab, Memory.byte]

/-- A word stored as its two bytes, low byte first, is read back (R54). -/
theorem Memory.progWord_write (m : Memory) (wa : Nat) (w : Word) :
    ((m.write .flash (2 * wa) (lowByte w)).write .flash (2 * wa + 1) (highByte w)).progWord wa = w := by
  have hne : 2 * wa + 1 ≠ 2 * wa := by omega
  simp only [Memory.progWord_eq_joinBytes, Memory.byte_write, if_true, if_neg hne]
  exact joinBytes_highByte_lowByte w

/-! ## The instruction at the pc -/

theorem words_pos (i : Instr) : 0 < i.words := by
  unfold Instr.words
  split <;> decide

/-- A fetch from implemented program memory outside a busy section gives the word (R53). -/
theorem fetchWord_readable {s : State} {wa : Nat} (hin : wa < s.launch.device.flashWords)
    (hbusy : s.sectionBusy wa = false) : fetchWord s wa = .next (s.mem.progWord wa) := by
  have hnot : ¬ s.sectionBusy wa = true := by simp [hbusy]
  rw [fetchWord, if_neg (Nat.not_le.2 hin), if_neg hnot]

/-- What four bytes can decode to: a one-word instruction of the first word, or a two-word LDS or STS whose address is
the second word (R82). -/
theorem decode_two_words {f : Features} {lo hi lo' hi' : Byte} {i : Instr} {rest : List Byte}
    (h : decode f [lo, hi, lo', hi'] = .instr i rest) :
    firstWord f (joinBytes hi lo) = some (.one i) ∨
      (∃ d, firstWord f (joinBytes hi lo) = some (.ldsAbs d) ∧ i = .lds d (joinBytes hi' lo')) ∨
      ∃ r, firstWord f (joinBytes hi lo) = some (.stsAbs r) ∧ i = .sts (joinBytes hi' lo') r := by
  simp only [decode] at h
  split at h <;> cases h
  case h_2 hform => exact .inl hform
  case h_3 d hform => exact .inr (.inl ⟨d, hform, rfl⟩)
  case h_4 r hform => exact .inr (.inr ⟨r, hform, rfl⟩)

/-- What the bytes at the pc decode to is fetched, where program memory holds it whole and readable. -/
theorem fetchInstr_of_decode {s : State} {i : Instr} {rest : List Byte} (hwrap : s.pcWrapped = false)
    (hdecode : decode s.launch.device.features s.fetchBytes = .instr i rest)
    (hin : s.pc.toNat + i.words ≤ s.launch.device.flashWords)
    (hbusy : ∀ n, n < i.words → s.sectionBusy (s.pc.toNat + n) = false) : fetchInstr s = .next i := by
  have hword : ∀ n, n < i.words → fetchWord s (s.pc.toNat + n) = .next (s.mem.progWord (s.pc.toNat + n)) :=
    fun n hn => fetchWord_readable (by omega) (hbusy n hn)
  have hfirst : fetchWord s s.pc.toNat = .next (s.mem.progWord s.pc.toNat) := hword 0 (words_pos i)
  have hnot : ¬ s.pcWrapped = true := by simp [hwrap]
  rw [fetchInstr, if_neg hnot, hfirst, andThen_next, Memory.progWord_eq_joinBytes]
  rcases decode_two_words hdecode with hform | ⟨d, hform, rfl⟩ | ⟨r, hform, rfl⟩
  · simp only [hform]
  · have hsecond := hword 1 Nat.one_lt_two
    simp only [hform, hsecond]
    rfl
  · have hsecond := hword 1 Nat.one_lt_two
    simp only [hform, hsecond]
    rfl

/-- The turn of a core that is awake is the meaning of the instruction at the pc. -/
theorem coreTurn_of_fetchInstr {s : State} {i : Instr} (hawake : s.asleep = false) (hfetch : fetchInstr s = .next i) :
    coreTurn s = exec i s := by
  have hnot : ¬ s.asleep = true := by simp [hawake]
  rw [coreTurn, if_neg hnot, hfetch, andThen_next]

/-- Where the core is next, the step is its turn. -/
theorem step_of_coreIsNext {s : State} (h : s.coreIsNext) : step s = coreTurn s := by
  obtain ⟨hend, hagenda, hidle, _⟩ := h
  simp only [step, hend, Bool.false_eq_true, if_false, hagenda, boundary, hidle]

/-- Where the agenda gives the core the turn, the step is its turn. -/
theorem step_of_core_turn {s : State} {later : List Turn} (hend : s.atEnd = false)
    (hagenda : s.agenda = .core :: later) : step s = coreTurn { s with agenda := later } := by
  simp only [step, hend, Bool.false_eq_true, if_false, hagenda]

end Sys2Proof.Machine
end

section
/-! SUPPORT. Of the memories every instruction but the two forms of SPM writes SRAM alone (20_memory.md R50, R69): no
write of a register, of the I/O space or of the data address space reaches another memory. -/

namespace Sys2Proof.Machine

open Config

/-- Every byte of every memory but SRAM reads as before; and no device's turn is taken from the agenda. -/
structure SramOnly (s u : State) : Prop where
  read : ∀ sp a, sp ≠ .sram → u.mem.read sp a = s.mem.read sp a
  agenda : u.agenda = s.agenda

section
variable {s t u : State}

theorem SramOnly.of_mem_eq (hmem : u.mem = s.mem) (hagenda : u.agenda = s.agenda) : SramOnly s u :=
  ⟨fun _ _ _ => by rw [hmem], hagenda⟩

theorem SramOnly.refl : SramOnly s s := .of_mem_eq rfl rfl

theorem SramOnly.trans (h : SramOnly s t) (h' : SramOnly t u) : SramOnly s u :=
  ⟨fun sp a hsp => (h'.read sp a hsp).trans (h.read sp a hsp), h'.agenda.trans h.agenda⟩

theorem SramOnly.write_sram (a : Nat) (v : Byte) : SramOnly s { s with mem := s.mem.write .sram a v } :=
  ⟨fun _ _ hsp => Memory.read_write_other _ v fun h => hsp h.1, rfl⟩

theorem SramOnly.retire (h : SramOnly s u) (n : Nat) : SramOnly s (retire n u) := h.trans (.of_mem_eq rfl rfl)

theorem SramOnly.setReg (h : SramOnly s u) (d : Reg) (v : Byte) : SramOnly s (u.setReg d v) :=
  h.trans (.of_mem_eq rfl rfl)

theorem SramOnly.setDataPtr (h : SramOnly s u) (p : Ptr) (v : Word) : SramOnly s (u.setDataPtr p v) :=
  h.trans (.of_mem_eq (by simp) (by simp))

theorem finish_sramOnly {r : Res State} {n : Nat} (h : Gives r (SramOnly s)) : Gives (finish n r) (SramOnly s) :=
  h.andThen fun _ hu => .next (hu.retire n)

/-- The next access of a read-modify-write finds no device's turn either. -/
theorem SramOnly.noMidTurn (h : SramOnly s u) (hmid : s.noMidTurn) : u.noMidTurn := by
  unfold State.noMidTurn
  rw [h.agenda]
  exact hmid

/-! ## The shared operations -/

theorem ioRead_sramOnly (a : IoAddr) : SramOnly s (ioRead s a).2 := .of_mem_eq (by simp) (by simp)

theorem ioWrite_sramOnly (a : IoAddr) (v : Byte) : Gives (ioWrite s a v) (SramOnly s) := by
  intro u hu
  rw [ioWrite_next hu]
  exact .of_mem_eq rfl rfl

theorem memRead_sramOnly (a : Word) : Gives (memRead s a) fun r => SramOnly s r.2 := by
  rintro ⟨v, u⟩ hu
  obtain ⟨u', hread, hstate⟩ := memRead_dataByte (memRead_next hu)
  obtain rfl : u = u' := by
    rw [hu] at hread
    cases hread
    rfl
  rw [hstate]
  exact .of_mem_eq rfl rfl

/-- A data write reaches a register, an I/O register or SRAM (R51, R57). -/
theorem memWrite_sramOnly (a : Word) (v : Byte) : Gives (memWrite s a v) (SramOnly s) := by
  intro u hu
  rcases memWrite_next hu with ⟨k, _, rfl⟩ | ⟨b, _, hio⟩ | ⟨b, _, rfl⟩
  · exact .of_mem_eq rfl rfl
  · exact ioWrite_sramOnly b v u hio
  · exact .write_sram b v

theorem progRead_sramOnly (ba : Nat) : Gives (progRead s ba) fun r => SramOnly s r.2 := by
  unfold progRead
  split
  · exact .refused
  · split <;> exact .next (.of_mem_eq rfl rfl)

theorem lpmRead_sramOnly (ba : Nat) : Gives (lpmRead s ba) fun r => SramOnly s r.2 := by
  unfold lpmRead
  split
  · exact .refused
  · split
    · exact .next (.of_mem_eq rfl rfl)
    · exact progRead_sramOnly ba

/-! ## Loads and stores -/

theorem loadAt_sramOnly (d : Reg) (a : Word) : Gives (loadAt d a s) (SramOnly s) :=
  (memRead_sramOnly a).andThen fun _ h => .next (h.setReg _ _)

theorem loadInc_sramOnly (p : Ptr) (d : Reg) : Gives (loadInc p d s) (SramOnly s) := by
  unfold loadInc
  split
  · exact .fault
  · exact (memRead_sramOnly _).andThen fun _ h => .next ((h.setDataPtr _ _).setReg _ _)

theorem loadDec_sramOnly (p : Ptr) (d : Reg) : Gives (loadDec p d s) (SramOnly s) := by
  unfold loadDec
  split
  · exact .fault
  · exact fun u hu => (SramOnly.refl.setDataPtr _ _).trans (loadAt_sramOnly _ _ u hu)

theorem storeInc_sramOnly (p : Ptr) (r : Reg) : Gives (storeInc p r s) (SramOnly s) := by
  unfold storeInc
  split
  · exact .fault
  · exact (memWrite_sramOnly _ _).andThen fun _ h => .next (h.setDataPtr _ _)

theorem storeDec_sramOnly (p : Ptr) (r : Reg) : Gives (storeDec p r s) (SramOnly s) := by
  unfold storeDec
  split
  · exact .fault
  · exact fun u hu => (SramOnly.refl.setDataPtr _ _).trans (memWrite_sramOnly _ _ u hu)

theorem loadProg_sramOnly (d : Reg) : Gives (loadProg d s) (SramOnly s) :=
  (lpmRead_sramOnly _).andThen fun _ h => .next (h.setReg _ _)

theorem loadProgInc_sramOnly (d : Reg) : Gives (loadProgInc d s) (SramOnly s) := by
  unfold loadProgInc
  split
  · exact .fault
  · exact (lpmRead_sramOnly _).andThen fun _ h => .next (h.trans (.of_mem_eq rfl rfl))

theorem loadProgExt_sramOnly (d : Reg) : Gives (loadProgExt d s) (SramOnly s) :=
  (progRead_sramOnly _).andThen fun _ h => .next (h.setReg _ _)

theorem loadProgExtInc_sramOnly (d : Reg) : Gives (loadProgExtInc d s) (SramOnly s) := by
  unfold loadProgExtInc
  split
  · exact .fault
  · exact (progRead_sramOnly _).andThen fun _ h => .next (h.trans (.of_mem_eq rfl rfl))

/-! ## The stack and read-modify-write -/

theorem pushByte_sramOnly (v : Byte) : Gives (pushByte s v) (SramOnly s) :=
  (memWrite_sramOnly _ v).andThen fun _ h => .next (h.trans (.of_mem_eq rfl rfl))

theorem popByte_sramOnly : Gives (popByte s) fun r => SramOnly s r.2 :=
  fun r hr => SramOnly.trans (t := s.setSp (s.sp + 1)) (.of_mem_eq rfl rfl) (memRead_sramOnly _ r hr)

theorem changeIoBit_sramOnly (hmid : s.noMidTurn) (a : IoAddr) (b : BitNum) (x : Bool) :
    Gives (changeIoBit a b x s) (SramOnly s) := by
  have hread : SramOnly s (ioRead s a).2 := ioRead_sramOnly a
  simp only [changeIoBit, midTurn_none (hread.noMidTurn hmid)]
  exact fun u hu => hread.trans (ioWrite_sramOnly _ _ u hu)

theorem exchange_sramOnly (hmid : s.noMidTurn) (d : Reg) (a : Word) : Gives (exchange d a s) (SramOnly s) :=
  (memRead_sramOnly a).andThen fun r hread => by
    rw [midTurn_none (hread.noMidTurn hmid)]
    exact (memWrite_sramOnly _ _).andThen fun _ h => .next ((hread.trans h).setReg _ _)

theorem execXch_sramOnly (hmid : s.noMidTurn) (d : Reg) : Gives (execXch d s) (SramOnly s) := by
  unfold execXch
  split
  · exact .fault
  · exact finish_sramOnly (exchange_sramOnly hmid d _)

theorem execPop_sramOnly (d : Reg) : Gives (execPop d s) (SramOnly s) :=
  finish_sramOnly (popByte_sramOnly.andThen fun _ h => .next (h.setReg _ _))

/-! ## SREG and control -/

theorem setSregBit_sramOnly (b : BitNum) : Gives (setSregBit b s) (SramOnly s) := by
  unfold setSregBit
  split
  · unfold writeSreg
    split
    · exact .refused
    · exact .next (.of_mem_eq rfl rfl)
  · exact .next (.of_mem_eq rfl rfl)

theorem setsFlag_sramOnly {i : Instr} {b : BitNum} (h : setsFlag i = some b) : Gives (exec i s) (SramOnly s) := by
  rw [exec_of_setsFlag h]
  exact setSregBit_sramOnly b

theorem execBrk_sramOnly : Gives (execBrk s) (SramOnly s) := by
  unfold execBrk
  split
  · exact .next (.of_mem_eq rfl rfl)
  · exact .fault
  · exact .refused

theorem execSleep_sramOnly : Gives (execSleep s) (SramOnly s) := by
  unfold execSleep
  split
  · split <;> exact .next (.of_mem_eq rfl rfl)
  · exact .next (.of_mem_eq rfl rfl)
  · exact .next (.of_mem_eq rfl rfl)
  · exact .refused

end

/-- Every instruction but SPM and SPM Z+ writes no memory but SRAM. -/
theorem exec_sramOnly {i : Instr} {s : State} (hmid : s.noMidTurn) (hspm : i ≠ .spm) (hinc : i ≠ .spmZInc) :
    Gives (exec i s) (SramOnly s) := by
  cases i with
  | mov d r | movw d r | ldi d k | swap d | bst r b | bld d b | lsl d | lsr d | rol d | ror d | asr d | nop | wdr =>
    exact .next (.of_mem_eq rfl rfl)
  | lds d k | lds16 d k | ldX d | ldY d | ldZ d | lddY d q | lddZ d q => exact finish_sramOnly (loadAt_sramOnly _ _)
  | ldXInc d | ldYInc d | ldZInc d => exact finish_sramOnly (loadInc_sramOnly _ _)
  | ldXDec d | ldYDec d | ldZDec d => exact finish_sramOnly (loadDec_sramOnly _ _)
  | sts k r | sts16 k r | stX r | stY r | stZ r | stdY q r | stdZ q r => exact finish_sramOnly (memWrite_sramOnly _ _)
  | stXInc r | stYInc r | stZInc r => exact finish_sramOnly (storeInc_sramOnly _ _)
  | stXDec r | stYDec r | stZDec r => exact finish_sramOnly (storeDec_sramOnly _ _)
  | lpm | lpmZ d => exact finish_sramOnly (loadProg_sramOnly _)
  | lpmZInc d => exact finish_sramOnly (loadProgInc_sramOnly _)
  | elpm | elpmZ d => exact finish_sramOnly (loadProgExt_sramOnly _)
  | elpmZInc d => exact finish_sramOnly (loadProgExtInc_sramOnly _)
  | spm => exact absurd rfl hspm
  | spmZInc => exact absurd rfl hinc
  | inp d a => exact .next (((ioRead_sramOnly a).setReg _ _).retire _)
  | out a r => exact finish_sramOnly (ioWrite_sramOnly _ _)
  | push r => exact finish_sramOnly (pushByte_sramOnly _)
  | pop d => exact execPop_sramOnly d
  | xch d => exact execXch_sramOnly hmid d
  | sbi a b | cbi a b => exact finish_sramOnly (changeIoBit_sramOnly hmid _ _ _)
  | bset b | sec | sez | sen | sev | ses | seh | setT | sei => exact setsFlag_sramOnly rfl
  | bclr b | clc | clz | cln | clv | cls | clh | clt | cli => exact .next (.of_mem_eq rfl rfl)
  | brk => exact execBrk_sramOnly
  | sleep => exact execSleep_sramOnly

end Sys2Proof.Machine
end

section
/-! SUPPORT. Where a data address and an I/O address lead (20_memory.md R51, R56, R58), by range. -/

namespace Sys2Proof.Machine

open Config

section
variable {d : Device} {a : Word}

theorem dataPlace_of_reg (hmapped : d.regsInDataSpace = true) (ha : a.toNat ≤ 0x1F) (hfirst : d.firstReg ≤ a.toNat) :
    dataPlace d a = .reg (BitVec.ofNat 5 a.toNat) := by
  simp only [dataPlace, if_pos (And.intro hmapped ha), if_pos hfirst]

theorem dataPlace_of_io (hreg : 0x1F < a.toNat) (hlo : d.ioBase ≤ a.toNat) (hhi : a.toNat < d.ioBase + d.ioCount) :
    dataPlace d a = .io (BitVec.ofNat 6 (a.toNat - d.ioBase)) := by
  have hnotReg : ¬(d.regsInDataSpace = true ∧ a.toNat ≤ 0x1F) := by omega
  simp only [dataPlace, if_neg hnotReg, if_pos (And.intro hlo hhi)]

/-- Above the registers and the I/O window, SRAM is the range of its addresses and the rest reaches nothing. -/
theorem dataPlace_above_io (hreg : 0x1F < a.toNat) (hio : d.ioBase + d.ioCount ≤ a.toNat) :
    dataPlace d a = if d.sramStart ≤ a.toNat ∧ a.toNat ≤ d.ramEnd then .sram a.toNat else .nothing a.toNat := by
  have hnotReg : ¬(d.regsInDataSpace = true ∧ a.toNat ≤ 0x1F) := by omega
  have hnotIo : ¬(d.ioBase ≤ a.toNat ∧ a.toNat < d.ioBase + d.ioCount) := by omega
  simp only [dataPlace, if_neg hnotReg, if_neg hnotIo]

theorem dataPlace_of_sram (hreg : 0x1F < a.toNat) (hio : d.ioBase + d.ioCount ≤ a.toNat) (hlo : d.sramStart ≤ a.toNat)
    (hhi : a.toNat ≤ d.ramEnd) : dataPlace d a = .sram a.toNat := by
  rw [dataPlace_above_io hreg hio, if_pos ⟨hlo, hhi⟩]

theorem dataPlace_of_above_ramEnd (hreg : 0x1F < a.toNat) (hio : d.ioBase + d.ioCount ≤ a.toNat)
    (hend : d.ramEnd < a.toNat) : dataPlace d a = .nothing a.toNat := by
  rw [dataPlace_above_io hreg hio, if_neg fun h => absurd h.2 (Nat.not_le.2 hend)]

end

/-- On the ATmega32 the I/O window ends where SRAM begins, above the registers (R51). -/
theorem atmega32_io_end {n : Nat} (h : 0x60 ≤ n) :
    0x1F < n ∧ Device.atmega32.ioBase + Device.atmega32.ioCount ≤ n :=
  ⟨by omega, h⟩

/-- An I/O address at or beyond IO_COUNT reaches no register (R6; log 39). -/
theorem ioReg_beyond {l : Launch} {a : IoAddr} (h : l.device.ioCount ≤ a.toNat) : ioReg l a = .unmodelled := by
  simp only [ioReg, if_pos h]

/-- MCUCR's address is told apart only where it decides about SLEEP (log 7). -/
theorem ioReg_mcucr_unmodelled {m : SleepMode} (h : m ≠ .mcucr) :
    ioReg { Launch.atmega32 with sleepMode := m } 0x35 = .unmodelled := by
  cases m with
  | mcucr => exact absurd rfl h
  | nop | wait | refuse => rfl

end Sys2Proof.Machine
end

section
/-! The obligations about memory: its byte order, who writes program memory, the address spaces, and the fetch. -/

namespace Sys2Proof.Proofs

open Machine

/-- Settles O10: the two bytes of a word are those at its two byte addresses. -/
theorem programByteOrder : Obligations.ProgramByteOrder := by
  unfold Obligations.ProgramByteOrder
  refine ⟨fun m ba => ?_, fun m wa hword => ?_, fun m wa w => m.progWord_write wa w⟩
  · change _ = if ba % 2 = 0 then lowByte (m.progWord (ba / 2)) else highByte (m.progWord (ba / 2))
    rw [m.lowByte_progWord, m.highByte_progWord]
    split
    · next heven => rw [show 2 * (ba / 2) = ba by omega]
    · next hodd => rw [show 2 * (ba / 2) + 1 = ba by omega]
  · rw [← m.lowByte_progWord, ← m.highByte_progWord, hword]
    decide

/-- Settles O59: such an instruction writes no memory but SRAM. -/
theorem onlySpmWritesProgram : Obligations.OnlySpmWritesProgram := by
  unfold Obligations.OnlySpmWritesProgram
  intro i s t hmid hspm hinc hexec a
  exact (exec_sramOnly hmid hspm hinc t hexec).read .flash a (by decide)

/-- Settles O9: the data space by its four ranges, the I/O space address by address. -/
theorem addressMapsOfAtmega32 : Obligations.AddressMapsOfAtmega32 := by
  unfold Obligations.AddressMapsOfAtmega32
  refine ⟨fun a => ?_, rfl, rfl, rfl, rfl, rfl, rfl, rfl, rfl, rfl, by decide, fun m hm => ioReg_mcucr_unmodelled hm,
    rfl, fun l a ha => ioReg_beyond ha⟩
  refine ⟨fun ha => ?_, fun hlo hhi => ?_, fun hlo hhi => ?_, fun hlo => ?_⟩
  · exact dataPlace_of_reg rfl ha (Nat.zero_le _)
  · exact dataPlace_of_io hlo hlo (Nat.lt_succ_of_le hhi)
  · obtain ⟨hreg, hio⟩ := atmega32_io_end hlo
    exact dataPlace_of_sram hreg hio hlo hhi
  · obtain ⟨hreg, hio⟩ := atmega32_io_end (n := a.toNat) (by omega)
    exact dataPlace_of_above_ramEnd hreg hio hlo

/-- Settles O55: the step is the turn of the core, whose fetch finds the instruction that the bytes decode to. The
agenda is no part of what is fetched. -/
theorem stepRunsDecoded : Obligations.StepRunsDecoded := by
  unfold Obligations.StepRunsDecoded
  intro s i rest hwrap hdecode hin hbusy
  have hfetch : fetchInstr s = .next i := fetchInstr_of_decode hwrap hdecode hin hbusy
  constructor
  · intro hnext
    have ⟨_, _, _, hawake⟩ := hnext
    rw [step_of_coreIsNext hnext, coreTurn_of_fetchInstr hawake hfetch]
  · intro later hend hawake hagenda
    rw [step_of_core_turn hend hagenda]
    exact coreTurn_of_fetchInstr (s := { s with agenda := later }) hawake hfetch

end Sys2Proof.Proofs
end

section
/-! SUPPORT. The formats of 30_encoding.md R84 to R95: a word is the one that a format makes of some operands exactly
where its fixed bits are the format's and its fields (R97) are the operands. -/

namespace Sys2Proof

/-! ## Bits of the formats and of their fields -/

section
variable (d r : Reg) (s p b : BitVec 1) (k : Byte) (q : Disp) (a : IoAddr) (n : BitNum) (w : Word) (i : Nat)

theorem getLsbD_encRR (op : BitVec 6) :
    (encRR op d r).getLsbD i = (op ++ r.extractLsb' 4 1 ++ d ++ r.extractLsb' 0 4).getLsbD i := rfl

theorem getLsbD_encPair :
    (encPair d r).getLsbD i = (0x01#8 ++ d.extractLsb' 1 4 ++ r.extractLsb' 1 4).getLsbD i := rfl

theorem getLsbD_encImm : (encImm d k).getLsbD i =
    (0b1110#4 ++ k.extractLsb' 4 4 ++ d.extractLsb' 0 4 ++ k.extractLsb' 0 4).getLsbD i := rfl

theorem getLsbD_encSub (m : BitVec 4) : (encSub s r m).getLsbD i = (0b100100#6 ++ s ++ r ++ m).getLsbD i := rfl

theorem getLsbD_encDisp : (encDisp s r p q).getLsbD i =
    (0b10#2 ++ q.extractLsb' 5 1 ++ 0b0#1 ++ q.extractLsb' 3 2 ++ s ++ r ++ p ++ q.extractLsb' 0 3).getLsbD i := rfl

theorem getLsbD_encDirect : (encDirect s r k).getLsbD i =
    (0b1010#4 ++ s ++ k.extractLsb' 5 1 ++ k.extractLsb' 4 1 ++ k.extractLsb' 6 1 ++ r.extractLsb' 0 4 ++
      k.extractLsb' 0 4).getLsbD i := rfl

theorem getLsbD_encIo : (encIo s r a).getLsbD i =
    (0b1011#4 ++ s ++ a.extractLsb' 4 2 ++ r ++ a.extractLsb' 0 4).getLsbD i := rfl

theorem getLsbD_encR1 (fn : BitVec 4) : (encR1 d fn).getLsbD i = (0b1001010#7 ++ d ++ fn).getLsbD i := rfl

theorem getLsbD_encSreg : (encSreg b n).getLsbD i = (0b10010100#8 ++ b ++ n ++ 0b1000#4).getLsbD i := rfl

theorem getLsbD_encIoBit :
    (encIoBit b a n).getLsbD i = (0b100110#6 ++ b ++ 0b0#1 ++ a.extractLsb' 0 5 ++ n).getLsbD i := rfl

theorem getLsbD_encTBit : (encTBit b r n).getLsbD i = (0b111110#6 ++ b ++ r ++ 0b0#1 ++ n).getLsbD i := rfl

theorem getLsbD_srcField : (srcField w).getLsbD i = (w.extractLsb' 9 1 ++ w.extractLsb' 0 4).getLsbD i := rfl

theorem getLsbD_upperField : (upperField w).getLsbD i = (1#1 ++ w.extractLsb' 4 4).getLsbD i := rfl

theorem getLsbD_pairDstField : (pairDstField w).getLsbD i = (w.extractLsb' 4 4 ++ 0#1).getLsbD i := rfl

theorem getLsbD_pairSrcField : (pairSrcField w).getLsbD i = (w.extractLsb' 0 4 ++ 0#1).getLsbD i := rfl

theorem getLsbD_immField : (immField w).getLsbD i = (w.extractLsb' 8 4 ++ w.extractLsb' 0 4).getLsbD i := rfl

theorem getLsbD_dispField : (dispField w).getLsbD i =
    (w.extractLsb' 13 1 ++ w.extractLsb' 10 2 ++ w.extractLsb' 0 3).getLsbD i := rfl

theorem getLsbD_ioField : (ioField w).getLsbD i = (w.extractLsb' 9 2 ++ w.extractLsb' 0 4).getLsbD i := rfl

theorem getLsbD_lowIoField : (lowIoField w).getLsbD i = (0#1 ++ w.extractLsb' 3 5).getLsbD i := rfl

theorem getLsbD_direct16Field : (direct16Field w).getLsbD i =
    (~~~(w.extractLsb' 8 1) ++ w.extractLsb' 8 1 ++ w.extractLsb' 10 1 ++ w.extractLsb' 9 1 ++
      w.extractLsb' 0 4).getLsbD i := rfl

end

/-! ## Operand ranges as bits (R97) -/

theorem upperReg_iff (d : Reg) : upperReg d = true ↔ d.getLsbD 4 = true := by decide +revert

theorem evenReg_iff (d : Reg) : evenReg d = true ↔ d.getLsbD 0 = false := by decide +revert

theorem lowIo_iff (a : IoAddr) : lowIo a = true ↔ a.getLsbD 5 = false := by decide +revert

theorem directAddr16_iff (k : Byte) : directAddr16 k = true ↔ k.getLsbD 7 = !k.getLsbD 6 := by decide +revert

/-! ## What a word of each format is

Both sides are written out as equations of bits; those of the format's fixed bits are evaluated, and what is left are
the same equations of operand bits on both sides. -/

section
variable {d r : Reg} {s p b : BitVec 1} {k : Byte} {q : Disp} {a : IoAddr} {n : BitNum} {w : Word}

theorem encRR_eq_iff {op : BitVec 6} :
    encRR op d r = w ↔ w &&& 0xFC00#16 = encRR op 0 0 ∧ regField w = d ∧ srcField w = r := by
  simp only [BitVec.eq_of_getLsbD_eq_iff, Nat.forall_lt_succ_right, getLsbD_encRR, regField, getLsbD_srcField,
    BitVec.getLsbD_append, BitVec.getLsbD_extractLsb', BitVec.getLsbD_and]
  simp
  grind

theorem encPair_eq_iff : (evenReg d = true ∧ evenReg r = true) ∧ encPair d r = w ↔
    w &&& 0xFF00#16 = 0x0100#16 ∧ pairDstField w = d ∧ pairSrcField w = r := by
  simp only [evenReg_iff, BitVec.eq_of_getLsbD_eq_iff, Nat.forall_lt_succ_right, getLsbD_encPair, getLsbD_pairDstField,
    getLsbD_pairSrcField, BitVec.getLsbD_append, BitVec.getLsbD_extractLsb', BitVec.getLsbD_and]
  simp
  grind

theorem encImm_eq_iff : upperReg d = true ∧ encImm d k = w ↔
    w &&& 0xF000#16 = 0xE000#16 ∧ upperField w = d ∧ immField w = k := by
  simp only [upperReg_iff, BitVec.eq_of_getLsbD_eq_iff, Nat.forall_lt_succ_right, getLsbD_encImm, getLsbD_upperField,
    getLsbD_immField, BitVec.getLsbD_append, BitVec.getLsbD_extractLsb', BitVec.getLsbD_and]
  simp
  grind

theorem encSub_eq_iff {m : BitVec 4} : encSub s r m = w ↔ w &&& 0xFE0F#16 = encSub s 0 m ∧ regField w = r := by
  simp only [BitVec.eq_of_getLsbD_eq_iff, Nat.forall_lt_succ_right, getLsbD_encSub, regField,
    BitVec.getLsbD_append, BitVec.getLsbD_extractLsb', BitVec.getLsbD_and]
  simp
  grind

theorem encDisp_eq_iff :
    encDisp s r p q = w ↔ w &&& 0xD208#16 = encDisp s 0 p 0 ∧ regField w = r ∧ dispField w = q := by
  simp only [BitVec.eq_of_getLsbD_eq_iff, Nat.forall_lt_succ_right, getLsbD_encDisp, regField, getLsbD_dispField,
    BitVec.getLsbD_append, BitVec.getLsbD_extractLsb', BitVec.getLsbD_and]
  simp
  grind

theorem encDirect_eq_iff : (upperReg r = true ∧ directAddr16 k = true) ∧ encDirect s r k = w ↔
    w &&& 0xF800#16 = encDirect s 0 0 ∧ upperField w = r ∧ direct16Field w = k := by
  simp only [upperReg_iff, directAddr16_iff, BitVec.eq_of_getLsbD_eq_iff, Nat.forall_lt_succ_right, getLsbD_encDirect,
    getLsbD_upperField, getLsbD_direct16Field, BitVec.getLsbD_append, BitVec.getLsbD_extractLsb', BitVec.getLsbD_and,
    BitVec.getLsbD_not]
  simp
  grind

theorem encIo_eq_iff :
    encIo s r a = w ↔ w &&& 0xF800#16 = encIo s 0 0 ∧ regField w = r ∧ ioField w = a := by
  simp only [BitVec.eq_of_getLsbD_eq_iff, Nat.forall_lt_succ_right, getLsbD_encIo, regField, getLsbD_ioField,
    BitVec.getLsbD_append, BitVec.getLsbD_extractLsb', BitVec.getLsbD_and]
  simp
  grind

theorem encR1_eq_iff {fn : BitVec 4} : encR1 d fn = w ↔ w &&& 0xFE0F#16 = encR1 0 fn ∧ regField w = d := by
  simp only [BitVec.eq_of_getLsbD_eq_iff, Nat.forall_lt_succ_right, getLsbD_encR1, regField,
    BitVec.getLsbD_append, BitVec.getLsbD_extractLsb', BitVec.getLsbD_and]
  simp
  grind

theorem encSreg_eq_iff : encSreg b n = w ↔ w &&& 0xFF8F#16 = encSreg b 0 ∧ sregField w = n := by
  simp only [BitVec.eq_of_getLsbD_eq_iff, Nat.forall_lt_succ_right, getLsbD_encSreg, sregField,
    BitVec.getLsbD_append, BitVec.getLsbD_extractLsb', BitVec.getLsbD_and]
  simp
  grind

theorem encIoBit_eq_iff : lowIo a = true ∧ encIoBit b a n = w ↔
    w &&& 0xFF00#16 = encIoBit b 0 0 ∧ lowIoField w = a ∧ bitField w = n := by
  simp only [lowIo_iff, BitVec.eq_of_getLsbD_eq_iff, Nat.forall_lt_succ_right, getLsbD_encIoBit, getLsbD_lowIoField,
    bitField, BitVec.getLsbD_append, BitVec.getLsbD_extractLsb', BitVec.getLsbD_and]
  simp
  grind

theorem encTBit_eq_iff :
    encTBit b r n = w ↔ w &&& 0xFE08#16 = encTBit b 0 0 ∧ regField w = r ∧ bitField w = n := by
  simp only [BitVec.eq_of_getLsbD_eq_iff, Nat.forall_lt_succ_right, getLsbD_encTBit, regField, bitField,
    BitVec.getLsbD_append, BitVec.getLsbD_extractLsb', BitVec.getLsbD_and]
  simp
  grind

end

end Sys2Proof
end

section
/-! SUPPORT. The stages of the decoder (30_encoding.md R102): which form each finds in a word, and that none before it
finds one there. -/

namespace Sys2Proof

open Config

/-! ## Words that fail a test -/

section
variable {w a b c x : Word}

/-- Bits that are fixed refuse a test that asks for others. -/
theorem and_ne_of_and_eq (h : w &&& a = x) (hne : x &&& b ≠ c &&& a) : w &&& b ≠ c := by
  rintro rfl
  rw [← h, BitVec.and_assoc, BitVec.and_assoc, BitVec.and_comm a b] at hne
  exact hne rfl

theorem ne_of_and_eq (h : w &&& a = x) (hne : c &&& a ≠ x) : w ≠ c := by
  rintro rfl
  exact hne h

/-- Of bits that are fixed, those under a smaller mask. -/
theorem and_eq_of_and_eq (h : w &&& a = x) (hab : a &&& b = b) : w &&& b = x &&& b := by
  rw [← h, BitVec.and_assoc, hab]

/-- A word without certain bits fails a test that asks for these and more. -/
theorem and_ne_of_and_ne (h : w &&& a ≠ x) (hab : b &&& a = a) (hc : c &&& a = x) : w &&& b ≠ c := by
  rintro rfl
  rw [BitVec.and_assoc, hab] at hc
  exact h hc

theorem ne_of_and_ne (h : w &&& a ≠ x) (hc : c &&& a = x) : w ≠ c := by
  rintro rfl
  exact h hc

end

/-! ## The stages in order -/

/-- Each stage in turn: what it finds is the answer, and where it finds nothing the next is asked (R102). -/
theorem formOf_eq (l : Bool) (w : Word) : formOf l w =
    ((noArgForm w <|> namedSregForm w <|> sregForm w <|> oneRegForm w).map Form.one <|> subOpForm w <|>
      (fieldForm w <|> (if l then directForm w else none) <|> dispForm w <|> twoRegForm w).map Form.one) := by
  unfold formOf
  cases noArgForm w <;> try rfl
  cases namedSregForm w <;> try rfl
  cases sregForm w <;> try rfl
  cases oneRegForm w <;> try rfl
  cases subOpForm w <;> try rfl
  cases fieldForm w <;> try rfl
  cases (if l then directForm w else none) <;> try rfl
  cases dispForm w <;> rfl

section
variable {w : Word} {l : Bool} {i : Instr} {fm : Form}

/-- The words of F_NOARG and F_SREG (R93, R94), but for NOP's, all have bits 15, 12, 10 and 3 set. -/
theorem formOf_of_not_fixed (hnop : w ≠ 0x0000#16) (h : w &&& 0x9408#16 ≠ 0x9408#16) : formOf l w =
    ((oneRegForm w).map Form.one <|> subOpForm w <|>
      (fieldForm w <|> (if l then directForm w else none) <|> dispForm w <|> twoRegForm w).map Form.one) := by
  have hno : noArgForm w = none := by
    simp (disch := decide) only [noArgForm, if_neg hnop, if_neg (ne_of_and_ne h _)]
  have hnamed : namedSregForm w = none := by
    simp (disch := decide) only [namedSregForm, if_neg (ne_of_and_ne h _)]
  have hsreg : sregForm w = none := by
    simp (disch := decide) only [sregForm, if_neg (and_ne_of_and_ne h _ _)]
  simp [formOf_eq, hno, hnamed, hsreg]

/-- F_R1 (R92) has bit 3 clear. -/
theorem formOf_of_oneRegForm (h : w &&& 0xFE08#16 = 0x9400#16) (hi : oneRegForm w = some i) :
    formOf l w = some (.one i) := by
  simp [formOf_of_not_fixed (ne_of_and_eq h (by decide)) (and_ne_of_and_eq h (by decide)), hi]

/-- F_R5X and F_ABS32 (R87, R88) have bit 10 clear, which F_R1 has set. -/
theorem formOf_of_subOpForm (h : w &&& 0xFC00#16 = 0x9000#16) (hfm : subOpForm w = some fm) :
    formOf l w = some fm := by
  have hone : oneRegForm w = none := by
    simp (disch := decide) only [oneRegForm, if_neg (and_ne_of_and_eq h _)]
  simp [formOf_of_not_fixed (ne_of_and_eq h (by decide)) (and_ne_of_and_eq h (by decide)), hone, hfm]

/-- Every word of the first five stages but NOP's begins with 10010. -/
theorem formOf_of_not_10010 (hnop : w ≠ 0x0000#16) (h : w &&& 0xF800#16 ≠ 0x9000#16) : formOf l w =
    (fieldForm w <|> (if l then directForm w else none) <|> dispForm w <|> twoRegForm w).map Form.one := by
  have hno : noArgForm w = none := by
    simp (disch := decide) only [noArgForm, if_neg hnop, if_neg (ne_of_and_ne h _)]
  have hnamed : namedSregForm w = none := by
    simp (disch := decide) only [namedSregForm, if_neg (ne_of_and_ne h _)]
  have hsreg : sregForm w = none := by
    simp (disch := decide) only [sregForm, if_neg (and_ne_of_and_ne h _ _)]
  have hone : oneRegForm w = none := by
    simp (disch := decide) only [oneRegForm, if_neg (and_ne_of_and_ne h _ _)]
  have hsub : subOpForm w = none := by
    simp (disch := decide) only [subOpForm, if_neg (and_ne_of_and_ne h _ _)]
  simp [formOf_eq, hno, hnamed, hsreg, hone, hsub]

/-- The formats of several fields (R85, R86, R91, R95) come next. -/
theorem formOf_of_fieldForm {a x : Word} (h : w &&& a = x) (hnop : x ≠ 0) (hx : x &&& 0xF800#16 ≠ 0x9000#16 &&& a)
    (hi : fieldForm w = some i) : formOf l w = some (.one i) := by
  have hne : w ≠ 0x0000#16 := by
    rintro rfl
    exact hnop (by simpa using h.symm)
  simp [formOf_of_not_10010 hne (and_ne_of_and_eq h hx), hi]

/-- F_LDS16 (R90). -/
theorem formOf_of_directForm (h : w &&& 0xF000#16 = 0xA000#16) (hi : directForm w = some i) :
    formOf true w = some (.one i) := by
  have hfield : fieldForm w = none := by
    simp (disch := decide) only [fieldForm, if_neg (and_ne_of_and_eq h _)]
  simp [formOf_of_not_10010 (ne_of_and_eq h (by decide)) (and_ne_of_and_eq h (by decide)), hfield, hi]

/-- F_DISP (R89), where F_LDS16 does not take the word. -/
theorem formOf_of_dispForm (h : w &&& 0xD000#16 = 0x8000#16) (hdirect : l = true → directForm w = none)
    (hi : dispForm w = some i) : formOf l w = some (.one i) := by
  have hfield : fieldForm w = none := by
    simp (disch := decide) only [fieldForm, if_neg (and_ne_of_and_eq h _)]
  have hdir : (if l then directForm w else none) = none := by
    cases l
    · rfl
    · exact hdirect rfl
  simp [formOf_of_not_10010 (ne_of_and_eq h (by decide)) (and_ne_of_and_eq h (by decide)), hfield, hdir, hi]

/-- F_RR (R84): MOV, LSL and ROL have bits 15, 14 clear and bits 11, 10 set. -/
theorem formOf_of_twoRegForm (h : w &&& 0xCC00#16 = 0x0C00#16) (hi : twoRegForm w = some i) :
    formOf l w = some (.one i) := by
  have hfield : fieldForm w = none := by
    simp (disch := decide) only [fieldForm, if_neg (and_ne_of_and_eq h _)]
  have hdirect : directForm w = none := by
    simp (disch := decide) only [directForm, if_neg (and_ne_of_and_eq h _)]
  have hdisp : dispForm w = none := by
    simp (disch := decide) only [dispForm, if_neg (and_ne_of_and_eq h _)]
  simp [formOf_of_not_10010 (ne_of_and_eq h (by decide)) (and_ne_of_and_eq h (by decide)), hfield, hdirect, hdisp, hi]

end

/-! ## The forms of the encoded words -/

section
variable {l : Bool} {fm : Form} {i : Instr} {d r : Reg} {s p : BitVec 1} {k : Byte} {q : Disp} {a : IoAddr}
  {n : BitNum}

theorem formOf_bset : formOf l (encSreg 0 n) = some (.one (Instr.bset n).canonical) := by decide +revert

theorem formOf_bclr : formOf l (encSreg 1 n) = some (.one (Instr.bclr n).canonical) := by decide +revert

theorem encSub_and {m : BitVec 4} : encSub s r m &&& 0xFE0F#16 = encSub s 0 m := (encSub_eq_iff.1 rfl).1

theorem regField_encSub {m : BitVec 4} : regField (encSub s r m) = r := (encSub_eq_iff.1 rfl).2

theorem encSub_zero_and {m : BitVec 4} : encSub s 0 m &&& 0xFC00#16 = 0x9000#16 := by decide +revert

theorem formOf_encSub {m : BitVec 4} (h : subOpForm (encSub s r m) = some fm) : formOf l (encSub s r m) = some fm :=
  formOf_of_subOpForm ((and_eq_of_and_eq encSub_and (by decide)).trans encSub_zero_and) h

theorem encR1_and {fn : BitVec 4} : encR1 d fn &&& 0xFE0F#16 = encR1 0 fn := (encR1_eq_iff.1 rfl).1

theorem regField_encR1 {fn : BitVec 4} : regField (encR1 d fn) = d := (encR1_eq_iff.1 rfl).2

theorem formOf_encR1 {fn : BitVec 4} (hfn : encR1 0 fn &&& 0xFE08#16 = 0x9400#16)
    (h : oneRegForm (encR1 d fn) = some i) : formOf l (encR1 d fn) = some (.one i) :=
  formOf_of_oneRegForm ((and_eq_of_and_eq encR1_and (by decide)).trans hfn) h

theorem formOf_encIoBit (b : BitVec 1) (hlow : lowIo a = true) :
    formOf l (encIoBit b a n) = some (.one (if b = 1 then .sbi a n else .cbi a n)) := by
  obtain ⟨h, ha, hn⟩ := encIoBit_eq_iff.1 ⟨hlow, Eq.refl (encIoBit b a n)⟩
  obtain rfl | rfl := BitVec.eq_zero_or_eq_one b
  all_goals
    refine formOf_of_fieldForm h (by decide) (by decide) ?_
    simp only [fieldForm, h, ha, hn]
    rfl

theorem formOf_encTBit (b : BitVec 1) :
    formOf l (encTBit b r n) = some (.one (if b = 1 then .bst r n else .bld r n)) := by
  obtain ⟨h, hr, hn⟩ := encTBit_eq_iff.1 (Eq.refl (encTBit b r n))
  obtain rfl | rfl := BitVec.eq_zero_or_eq_one b
  all_goals
    refine formOf_of_fieldForm h (by decide) (by decide) ?_
    simp (disch := decide) only [fieldForm, if_neg (and_ne_of_and_eq h _), h, hr, hn]
    rfl

theorem formOf_encIo (s : BitVec 1) :
    formOf l (encIo s r a) = some (.one (if s = 1 then .out a r else .inp r a)) := by
  obtain ⟨h, hr, ha⟩ := encIo_eq_iff.1 (Eq.refl (encIo s r a))
  obtain rfl | rfl := BitVec.eq_zero_or_eq_one s
  all_goals
    refine formOf_of_fieldForm h (by decide) (by decide) ?_
    simp (disch := decide) only [fieldForm, if_neg (and_ne_of_and_eq h _), h, hr, ha]
    rfl

theorem formOf_ldi (hd : upperReg d = true) : formOf l (encImm d k) = some (.one (.ldi d k)) := by
  obtain ⟨h, hd, hk⟩ := encImm_eq_iff.1 ⟨hd, rfl⟩
  refine formOf_of_fieldForm h (by decide) (by decide) ?_
  simp (disch := decide) only [fieldForm, if_neg (and_ne_of_and_eq h _), h, hd, hk]
  rfl

theorem formOf_movw (hd : evenReg d = true) (hr : evenReg r = true) :
    formOf l (encPair d r) = some (.one (.movw d r)) := by
  obtain ⟨h, hd, hr⟩ := encPair_eq_iff.1 ⟨⟨hd, hr⟩, rfl⟩
  refine formOf_of_fieldForm h (by decide) (by decide) ?_
  simp (disch := decide) only [fieldForm, if_neg (and_ne_of_and_eq h _), h, hd, hr]
  rfl

theorem formOf_encDirect (s : BitVec 1) (hr : upperReg r = true) (hk : directAddr16 k = true) :
    formOf true (encDirect s r k) = some (.one (if s = 1 then .sts16 k r else .lds16 r k)) := by
  obtain ⟨h, hr, hk⟩ := encDirect_eq_iff.1 ⟨⟨hr, hk⟩, Eq.refl (encDirect s r k)⟩
  obtain rfl | rfl := BitVec.eq_zero_or_eq_one s
  all_goals
    refine formOf_of_directForm (and_eq_of_and_eq h (by decide)) ?_
    simp only [directForm, h, hr, hk]
    rfl

theorem encDisp_and : encDisp s r p q &&& 0xD208#16 = encDisp s 0 p 0 := (encDisp_eq_iff.1 rfl).1

theorem regField_encDisp : regField (encDisp s r p q) = r := (encDisp_eq_iff.1 rfl).2.1

theorem dispField_encDisp : dispField (encDisp s r p q) = q := (encDisp_eq_iff.1 rfl).2.2

theorem encDisp_zero_and : encDisp s 0 p 0 &&& 0xD000#16 = 0x8000#16 := by decide +revert

/-- With displacement 0 bit 13 is clear, which F_LDS16 has set. -/
theorem directForm_encDisp_zero : directForm (encDisp s r p 0) = none := by
  have h : encDisp s r p 0 &&& 0xF000#16 = 0x8000#16 := by
    simp only [BitVec.eq_of_getLsbD_eq_iff, Nat.forall_lt_succ_right, getLsbD_encDisp, BitVec.getLsbD_append,
      BitVec.getLsbD_extractLsb', BitVec.getLsbD_and]
    simp
  simp (disch := decide) only [directForm, if_neg (and_ne_of_and_eq h _)]

theorem formOf_encDisp (hq : l = true → q = 0) (h : dispForm (encDisp s r p q) = some i) :
    formOf l (encDisp s r p q) = some (.one i) := by
  refine formOf_of_dispForm ((and_eq_of_and_eq encDisp_and (by decide)).trans encDisp_zero_and) (fun hl => ?_) h
  rw [hq hl, directForm_encDisp_zero]

theorem formOf_mov : formOf l (encRR 0b001011 d r) = some (.one (.mov d r)) := by
  obtain ⟨h, hd, hr⟩ := encRR_eq_iff.1 (Eq.refl (encRR 0b001011 d r))
  refine formOf_of_twoRegForm (and_eq_of_and_eq h (by decide)) ?_
  simp only [twoRegForm, h, hd, hr]
  rfl

theorem formOf_lsl : formOf l (encRR 0b000011 d d) = some (.one (.lsl d)) := by
  obtain ⟨h, hd, hr⟩ := encRR_eq_iff.1 (Eq.refl (encRR 0b000011 d d))
  refine formOf_of_twoRegForm (and_eq_of_and_eq h (by decide)) ?_
  simp only [twoRegForm, h, hd, hr, and_true]
  rfl

theorem formOf_rol : formOf l (encRR 0b000111 d d) = some (.one (.rol d)) := by
  obtain ⟨h, hd, hr⟩ := encRR_eq_iff.1 (Eq.refl (encRR 0b000111 d d))
  refine formOf_of_twoRegForm (and_eq_of_and_eq h (by decide)) ?_
  simp only [twoRegForm, h, hd, hr, and_true]
  rfl

end

end Sys2Proof
end

section
/-! SUPPORT. The table of names of 30_encoding.md R98: which instructions are two names of one word, and that the
decoder's name has the same word, the same meaning and the same conditions. -/

namespace Sys2Proof

open Config Machine

/-- A name and the name the decoder takes for the same word (R98, R102): the form that sets or clears a bit of SREG by
its name, LD and ST for displacement 0, and otherwise the name itself. -/
inductive DecodedName : Instr → Instr → Prop where
  | set {i : Instr} {b : BitNum} (h : setsFlag i = some b) : DecodedName (.bset b) i
  | clear {i : Instr} {b : BitNum} (h : clearsFlag i = some b) : DecodedName (.bclr b) i
  | lddY (d : Reg) : DecodedName (.lddY d 0) (.ldY d)
  | lddZ (d : Reg) : DecodedName (.lddZ d 0) (.ldZ d)
  | stdY (r : Reg) : DecodedName (.stdY 0 r) (.stY r)
  | stdZ (r : Reg) : DecodedName (.stdZ 0 r) (.stZ r)
  | same (i : Instr) : DecodedName i i

theorem setsFlag_canonical_bset (b : BitNum) : setsFlag (Instr.bset b).canonical = some b := by decide +revert

theorem clearsFlag_canonical_bclr (b : BitNum) : clearsFlag (Instr.bclr b).canonical = some b := by decide +revert

theorem DecodedName.of_canonical_eq {i : Instr} (h : i.canonical = i) : DecodedName i i.canonical := by
  rw [h]
  exact .same i

theorem decodedName_canonical (i : Instr) : DecodedName i i.canonical := by
  cases i with
  | bset b => exact .set (setsFlag_canonical_bset b)
  | bclr b => exact .clear (clearsFlag_canonical_bclr b)
  | lddY d q =>
    rcases eq_or_ne q 0 with rfl | hq
    · exact .lddY d
    · exact .of_canonical_eq (if_neg hq)
  | lddZ d q =>
    rcases eq_or_ne q 0 with rfl | hq
    · exact .lddZ d
    · exact .of_canonical_eq (if_neg hq)
  | stdY q r =>
    rcases eq_or_ne q 0 with rfl | hq
    · exact .stdY r
    · exact .of_canonical_eq (if_neg hq)
  | stdZ q r =>
    rcases eq_or_ne q 0 with rfl | hq
    · exact .stdZ r
    · exact .of_canonical_eq (if_neg hq)
  | _ => exact .same _

theorem encode_of_setsFlag {i : Instr} {b : BitNum} (h : setsFlag i = some b) : encode i = [encSreg 0 b] := by
  cases i with
  | bset b | sec | sez | sen | sev | ses | seh | setT | sei => cases h; rfl
  | _ => cases h

theorem encode_of_clearsFlag {i : Instr} {b : BitNum} (h : clearsFlag i = some b) : encode i = [encSreg 1 b] := by
  cases i with
  | bclr b | clc | clz | cln | clv | cls | clh | clt | cli => cases h; rfl
  | _ => cases h

theorem supported_of_setsFlag {i : Instr} {b : BitNum} (f : Features) (h : setsFlag i = some b) :
    i.supported f = true := by
  cases i with
  | bset b | sec | sez | sen | sev | ses | seh | setT | sei => exact Bool.or_true _
  | _ => cases h

theorem supported_of_clearsFlag {i : Instr} {b : BitNum} (f : Features) (h : clearsFlag i = some b) :
    i.supported f = true := by
  cases i with
  | bclr b | clc | clz | cln | clv | cls | clh | clt | cli => exact Bool.or_true _
  | _ => cases h

theorem DecodedName.encode_eq {i j : Instr} (h : DecodedName i j) : encode j = encode i := by
  cases h with
  | set h => exact encode_of_setsFlag h
  | clear h => exact encode_of_clearsFlag h
  | lddY | lddZ | stdY | stdZ | same => rfl

theorem State.dispAddr_zero (s : State) (p : Ptr) : s.dispAddr p 0 = s.dataPtr p := by
  simp [State.dispAddr]

theorem DecodedName.exec_eq {i j : Instr} (h : DecodedName i j) (s : State) : exec j s = exec i s := by
  cases h with
  | set h => rw [exec_of_setsFlag h, exec_of_setsFlag rfl]
  | clear h => rw [exec_of_clearsFlag h, exec_of_clearsFlag rfl]
  | lddY d =>
    change execLdY d s = execLddY d 0 s
    rw [execLdY, execLddY, State.dispAddr_zero]
  | lddZ d =>
    change execLdZ d s = execLddZ d 0 s
    rw [execLdZ, execLddZ, State.dispAddr_zero]
  | stdY r =>
    change execStY r s = execStdY 0 r s
    rw [execStY, execStdY, State.dispAddr_zero]
  | stdZ r =>
    change execStZ r s = execStdZ 0 r s
    rw [execStZ, execStdZ, State.dispAddr_zero]
  | same => rfl

/-- A device with LDD has LD, and the registers are the same. -/
theorem DecodedName.supported {i j : Instr} {f : Features} (h : DecodedName i j) (hi : i.supported f = true) :
    j.supported f = true := by
  cases h with
  | set h => exact supported_of_setsFlag f h
  | clear h => exact supported_of_clearsFlag f h
  | lddY | lddZ | stdY | stdZ =>
    exact (Bool.and_eq_true_iff.1 hi).2
  | same => exact hi

end Sys2Proof
end

section
/-! SUPPORT. What a stage of the decoder finds in a word is an instruction that the word is the encoding of, under the
name the decoder uses (30_encoding.md R96, R97, R101, R102). -/

namespace Sys2Proof

open Config

/-- The word is the encoding of the instruction, whose operands are in range and whose name is the decoder's. -/
structure Instr.IsReadFrom (w : Word) (i : Instr) : Prop where
  encode : encode i = [w]
  operands : i.operandsOk = true
  canonical : i.canonical = i

/-- The word is the first word of the form. -/
def Form.IsReadFrom (w : Word) : Form → Prop
  | .one i => i.IsReadFrom w
  | .ldsAbs d => encSub 0 d 0b0000 = w
  | .stsAbs r => encSub 1 r 0b0000 = w

/-- One test of a stage: what its two outcomes answer has the property. -/
theorem forall_mem_ite_some {α : Type} {c : Prop} [Decidable c] {x : α} {o : Option α} {P : α → Prop}
    (hpos : c → P x) (hneg : ∀ y ∈ o, P y) : ∀ y ∈ (if c then some x else o), P y := by
  split
  · next hc => exact fun y hy => Option.mem_some.1 hy ▸ hpos hc
  · exact hneg

theorem forall_mem_none {α : Type} {P : α → Prop} : ∀ y ∈ (none : Option α), P y := nofun

/-- The next stage is asked where one finds nothing. -/
theorem forall_mem_orElse {α : Type} {o o' : Option α} {P : α → Prop} (h : ∀ y ∈ o, P y)
    (h' : o = none → ∀ y ∈ o', P y) : ∀ y ∈ (o <|> o'), P y := by
  cases o with
  | none => exact h' rfl
  | some x => exact h

section
variable {w : Word}

theorem Instr.IsReadFrom.of_encode {i : Instr} {v : Word} (henc : Sys2Proof.encode i = [v]) (hv : v = w)
    (hops : i.operandsOk = true) (hcan : i.canonical = i) : i.IsReadFrom w := ⟨hv ▸ henc, hops, hcan⟩

theorem noArgForm_isReadFrom : ∀ i ∈ noArgForm w, i.IsReadFrom w := by
  unfold noArgForm
  iterate 8 refine forall_mem_ite_some (fun hw => .of_encode rfl hw.symm rfl rfl) ?_
  exact forall_mem_none

theorem namedSregForm_isReadFrom : ∀ i ∈ namedSregForm w, i.IsReadFrom w := by
  unfold namedSregForm
  iterate 16 refine forall_mem_ite_some (fun hw => .of_encode rfl hw.symm rfl rfl) ?_
  exact forall_mem_none

theorem namedSregForm_encSreg (b : BitVec 1) (n : BitNum) : namedSregForm (encSreg b n) ≠ none := by decide +revert

/-- Every word of F_SREG has a name of its own (R98), so BSET and BCLR are never decoded. -/
theorem sregForm_of_not_named (h : namedSregForm w = none) : sregForm w = none := by
  have hno : ∀ b, w &&& 0xFF8F#16 ≠ encSreg b 0 := by
    intro b hfixed
    rw [← encSreg_eq_iff.2 ⟨hfixed, rfl⟩] at h
    exact namedSregForm_encSreg _ _ h
  exact (if_neg (hno 0)).trans (if_neg (hno 1))

theorem oneRegForm_isReadFrom : ∀ i ∈ oneRegForm w, i.IsReadFrom w := by
  unfold oneRegForm
  iterate 4 refine forall_mem_ite_some (fun h => .of_encode rfl (encR1_eq_iff.2 ⟨h, rfl⟩) rfl rfl) ?_
  exact forall_mem_none

theorem subOpForm_isReadFrom : ∀ fm ∈ subOpForm w, fm.IsReadFrom w := by
  unfold subOpForm
  refine forall_mem_ite_some (fun h => encSub_eq_iff.2 ⟨h, rfl⟩) ?_
  iterate 12 refine forall_mem_ite_some (fun h => .of_encode rfl (encSub_eq_iff.2 ⟨h, rfl⟩) rfl rfl) ?_
  refine forall_mem_ite_some (fun h => encSub_eq_iff.2 ⟨h, rfl⟩) ?_
  iterate 9 refine forall_mem_ite_some (fun h => .of_encode rfl (encSub_eq_iff.2 ⟨h, rfl⟩) rfl rfl) ?_
  exact forall_mem_none

theorem fieldForm_isReadFrom : ∀ i ∈ fieldForm w, i.IsReadFrom w := by
  unfold fieldForm
  refine forall_mem_ite_some (fun hsbi => ?_) <| forall_mem_ite_some (fun hcbi => ?_) <|
    forall_mem_ite_some (fun hbst => ?_) <| forall_mem_ite_some (fun hbld => ?_) <|
    forall_mem_ite_some (fun hin => ?_) <| forall_mem_ite_some (fun hout => ?_) <|
    forall_mem_ite_some (fun hldi => ?_) <| forall_mem_ite_some (fun hmovw => ?_) forall_mem_none
  · obtain ⟨hlow, hw⟩ := (encIoBit_eq_iff (b := 1)).2 ⟨hsbi, rfl, rfl⟩
    exact .of_encode rfl hw hlow rfl
  · obtain ⟨hlow, hw⟩ := (encIoBit_eq_iff (b := 0)).2 ⟨hcbi, rfl, rfl⟩
    exact .of_encode rfl hw hlow rfl
  · exact .of_encode rfl (encTBit_eq_iff.2 ⟨hbst, rfl, rfl⟩) rfl rfl
  · exact .of_encode rfl (encTBit_eq_iff.2 ⟨hbld, rfl, rfl⟩) rfl rfl
  · exact .of_encode rfl (encIo_eq_iff.2 ⟨hin, rfl, rfl⟩) rfl rfl
  · exact .of_encode rfl (encIo_eq_iff.2 ⟨hout, rfl, rfl⟩) rfl rfl
  · obtain ⟨hupper, hw⟩ := encImm_eq_iff.2 ⟨hldi, rfl, rfl⟩
    exact .of_encode rfl hw hupper rfl
  · obtain ⟨heven, hw⟩ := encPair_eq_iff.2 ⟨hmovw, rfl, rfl⟩
    exact .of_encode rfl hw (Bool.and_eq_true_iff.2 heven) rfl

theorem directForm_isReadFrom : ∀ i ∈ directForm w, i.IsReadFrom w := by
  unfold directForm
  refine forall_mem_ite_some (fun hlds => ?_) <| forall_mem_ite_some (fun hsts => ?_) forall_mem_none
  · obtain ⟨hops, hw⟩ := (encDirect_eq_iff (s := 0)).2 ⟨hlds, rfl, rfl⟩
    exact .of_encode rfl hw (Bool.and_eq_true_iff.2 hops) rfl
  · obtain ⟨hops, hw⟩ := (encDirect_eq_iff (s := 1)).2 ⟨hsts, rfl, rfl⟩
    exact .of_encode rfl hw (Bool.and_eq_true_iff.2 hops) rfl

/-- With displacement 0 the word is that of LD or ST, whose name the decoder takes (R98, R102). -/
theorem dispForm_isReadFrom : ∀ i ∈ dispForm w, i.IsReadFrom w := by
  unfold dispForm
  iterate 4
    refine forall_mem_ite_some (fun hm => iteInduction
      (fun hq => .of_encode rfl (encDisp_eq_iff.2 ⟨hm, rfl, hq⟩) rfl rfl)
      (fun hq => .of_encode rfl (encDisp_eq_iff.2 ⟨hm, rfl, rfl⟩) rfl (if_neg hq))) ?_
  exact forall_mem_none

theorem twoRegForm_isReadFrom : ∀ i ∈ twoRegForm w, i.IsReadFrom w := by
  unfold twoRegForm
  refine forall_mem_ite_some (fun hmov => ?_) <| forall_mem_ite_some (fun hlsl => ?_) <|
    forall_mem_ite_some (fun hrol => ?_) forall_mem_none
  · exact .of_encode rfl (encRR_eq_iff.2 ⟨hmov, rfl, rfl⟩) rfl rfl
  · obtain ⟨hm, hsame⟩ := hlsl
    exact .of_encode rfl (encRR_eq_iff.2 ⟨hm, rfl, hsame⟩) rfl rfl
  · obtain ⟨hm, hsame⟩ := hrol
    exact .of_encode rfl (encRR_eq_iff.2 ⟨hm, rfl, hsame⟩) rfl rfl

/-- Whatever the decoder finds in a first word, the word is that form's (R101). -/
theorem formOf_isReadFrom (l : Bool) : ∀ fm ∈ formOf l w, fm.IsReadFrom w := by
  have hdirect : ∀ i ∈ (if l then directForm w else none), i.IsReadFrom w := by
    cases l
    · exact forall_mem_none
    · exact directForm_isReadFrom
  have hearly : ∀ i ∈ (noArgForm w <|> namedSregForm w <|> sregForm w <|> oneRegForm w), i.IsReadFrom w := by
    refine forall_mem_orElse noArgForm_isReadFrom fun _ => forall_mem_orElse namedSregForm_isReadFrom fun hnamed => ?_
    rw [sregForm_of_not_named hnamed]
    exact oneRegForm_isReadFrom
  have hlate : ∀ i ∈ (fieldForm w <|> (if l then directForm w else none) <|> dispForm w <|> twoRegForm w),
      i.IsReadFrom w :=
    forall_mem_orElse fieldForm_isReadFrom fun _ => forall_mem_orElse hdirect fun _ =>
      forall_mem_orElse dispForm_isReadFrom fun _ => twoRegForm_isReadFrom
  rw [formOf_eq]
  exact forall_mem_orElse (Option.forall_mem_map.2 hearly) fun _ =>
    forall_mem_orElse subOpForm_isReadFrom fun _ => Option.forall_mem_map.2 hlate

end

end Sys2Proof
end

section
/-! SUPPORT. `decode` on bytes: what it answers by the form of the first word, and the form of every encoded
instruction (30_encoding.md R81, R82, R102). -/

namespace Sys2Proof

open Config Machine

theorem bytesOf_singleton_joinBytes (lo hi : Byte) : bytesOf [joinBytes hi lo] = [lo, hi] := by
  simp [bytesOf, lowByte_joinBytes, highByte_joinBytes]

theorem firstWord_eq_some {f : Features} {w : Word} {fm : Form} :
    firstWord f w = some fm ↔ formOf f.hasLds16 w = some fm ∧ fm.supported f = true := by
  unfold firstWord
  split
  · next fm' hform =>
    rw [hform]
    split
    · next hsup => exact ⟨fun h => ⟨h, Option.some.inj h ▸ hsup⟩, fun ⟨h, _⟩ => h⟩
    · next hsup => exact ⟨nofun, fun ⟨h, h'⟩ => absurd (Option.some.inj h ▸ h') hsup⟩
  · next hform => simp [hform]

section
variable {f : Features} {w k : Word} {i : Instr} {d r : Reg} {rest : List Byte}

theorem decode_one (hform : formOf f.hasLds16 w = some (.one i)) (hsup : i.supported f = true) :
    decode f (bytesOf [w] ++ rest) = .instr i rest := by
  have hfirst : firstWord f w = some (.one i) := firstWord_eq_some.2 ⟨hform, hsup⟩
  simp [bytesOf, decode, joinBytes_highByte_lowByte, hfirst]

theorem decode_ldsAbs (hform : formOf f.hasLds16 w = some (.ldsAbs d)) (hsup : (Instr.lds d k).supported f = true) :
    decode f (bytesOf [w, k] ++ rest) = .instr (.lds d k) rest := by
  have hfirst : firstWord f w = some (.ldsAbs d) := firstWord_eq_some.2 ⟨hform, hsup⟩
  simp [bytesOf, decode, joinBytes_highByte_lowByte, hfirst]

theorem decode_stsAbs (hform : formOf f.hasLds16 w = some (.stsAbs r)) (hsup : (Instr.sts k r).supported f = true) :
    decode f (bytesOf [w, k] ++ rest) = .instr (.sts k r) rest := by
  have hfirst : firstWord f w = some (.stsAbs r) := firstWord_eq_some.2 ⟨hform, hsup⟩
  simp [bytesOf, decode, joinBytes_highByte_lowByte, hfirst]

theorem decode_eq_notInScope {lo hi : Byte} {tail : List Byte} (h : decode f (lo :: hi :: tail) = .notInScope w) :
    w = joinBytes hi lo ∧ firstWord f w = none := by
  simp only [decode] at h
  split at h
  case h_1 hfirst =>
    cases h
    exact ⟨rfl, hfirst⟩
  case h_2 => cases h
  all_goals split at h <;> cases h

/-- A word that stops short is the first of a two-word LDS or STS (R82). -/
theorem firstWord_of_decode_truncated (h : decode f (bytesOf [w]) = .truncated) :
    (∃ d, firstWord f w = some (.ldsAbs d)) ∨ ∃ r, firstWord f w = some (.stsAbs r) := by
  simp only [bytesOf, decode, joinBytes_highByte_lowByte] at h
  split at h
  case h_1 | h_2 => cases h
  case h_3 d hfirst => exact .inl ⟨d, hfirst⟩
  case h_4 r hfirst => exact .inr ⟨r, hfirst⟩

/-- What bytes decode to, by the form of their first word. -/
theorem decode_eq_instr {bs : List Byte} (h : decode f bs = .instr i rest) :
    (∃ w, bs = bytesOf [w] ++ rest ∧ firstWord f w = some (.one i)) ∨
      (∃ w d k, bs = bytesOf [w, k] ++ rest ∧ i = .lds d k ∧ firstWord f w = some (.ldsAbs d)) ∨
      ∃ w k r, bs = bytesOf [w, k] ++ rest ∧ i = .sts k r ∧ firstWord f w = some (.stsAbs r) := by
  unfold decode at h
  split at h
  · next lo hi tail =>
    dsimp only at h
    split at h
    · cases h
    · next j hfirst =>
      cases h
      exact .inl ⟨joinBytes hi lo, by rw [bytesOf_singleton_joinBytes]; rfl, hfirst⟩
    · next d hfirst =>
      split at h
      · next lo2 hi2 rest2 =>
        cases h
        refine .inr (.inl ⟨joinBytes hi lo, d, joinBytes hi2 lo2, ?_, rfl, hfirst⟩)
        simp [bytesOf, lowByte_joinBytes, highByte_joinBytes]
      · cases h
    · next r hfirst =>
      split at h
      · next lo2 hi2 rest2 =>
        cases h
        refine .inr (.inr ⟨joinBytes hi lo, joinBytes hi2 lo2, r, ?_, rfl, hfirst⟩)
        simp [bytesOf, lowByte_joinBytes, highByte_joinBytes]
      · cases h
  · cases h

/-- The instruction by its format: the fixed bits lead to the stage that reads the word, and its fields are the
operands. -/
theorem decode_encode (h : WellFormed f i = true) :
    decode f (bytesOf (encode i) ++ rest) = .instr i.canonical rest := by
  obtain ⟨hops, hsup⟩ := Bool.and_eq_true_iff.1 h
  have hform : i.hasForm f = true := (Bool.and_eq_true_iff.1 hsup).1
  have hsup' : i.canonical.supported f = true := (decodedName_canonical i).supported hsup
  cases i with
  | nop | sleep | brk | wdr | lpm | elpm | spm | spmZInc => exact decode_one rfl hsup'
  | sec | sez | sen | sev | ses | seh | setT | sei | clc | clz | cln | clv | cls | clh | clt | cli =>
    exact decode_one rfl hsup'
  | bset s => exact decode_one formOf_bset hsup'
  | bclr s => exact decode_one formOf_bclr hsup'
  | swap d | asr d | lsr d | ror d =>
    refine decode_one (formOf_encR1 (by decide) ?_) hsup'
    simp only [oneRegForm, encR1_and, regField_encR1]
    rfl
  | lds d k =>
    refine decode_ldsAbs (formOf_encSub ?_) hsup'
    simp only [subOpForm, encSub_and, regField_encSub]
    rfl
  | sts k r =>
    refine decode_stsAbs (formOf_encSub ?_) hsup'
    simp only [subOpForm, encSub_and, regField_encSub]
    rfl
  | ldX d | ldXInc d | ldXDec d | ldYInc d | ldYDec d | ldZInc d | ldZDec d | stX r | stXInc r | stXDec r | stYInc r
  | stYDec r | stZInc r | stZDec r | lpmZ d | lpmZInc d | elpmZ d | elpmZInc d | push r | pop d | xch d =>
    refine decode_one (formOf_encSub ?_) hsup'
    simp only [subOpForm, encSub_and, regField_encSub]
    rfl
  | sbi a b => exact decode_one (formOf_encIoBit 1 hops) hsup'
  | cbi a b => exact decode_one (formOf_encIoBit 0 hops) hsup'
  | bst r b => exact decode_one (formOf_encTBit 1) hsup'
  | bld d b => exact decode_one (formOf_encTBit 0) hsup'
  | inp d a => exact decode_one (formOf_encIo 0) hsup'
  | out a r => exact decode_one (formOf_encIo 1) hsup'
  | ldi d k => exact decode_one (formOf_ldi hops) hsup'
  | movw d r =>
    obtain ⟨hd, hr⟩ := Bool.and_eq_true_iff.1 hops
    exact decode_one (formOf_movw hd hr) hsup'
  | lds16 d k =>
    obtain ⟨hd, hk⟩ := Bool.and_eq_true_iff.1 hops
    have hlds16 : f.hasLds16 = true := hform
    exact decode_one (hlds16 ▸ formOf_encDirect 0 hd hk) hsup'
  | sts16 k r =>
    obtain ⟨hr, hk⟩ := Bool.and_eq_true_iff.1 hops
    have hlds16 : f.hasLds16 = true := hform
    exact decode_one (hlds16 ▸ formOf_encDirect 1 hr hk) hsup'
  | ldY d | ldZ d | stY r | stZ r =>
    refine decode_one (formOf_encDisp (fun _ => rfl) ?_) hsup'
    simp only [dispForm, encDisp_and, regField_encDisp, dispField_encDisp]
    rfl
  | lddY d q | lddZ d q | stdY q r | stdZ q r =>
    have hno : f.hasLds16 = false := by simpa [Instr.hasForm] using hform
    refine decode_one (formOf_encDisp (fun hlds16 => by simp [hno] at hlds16) ?_) hsup'
    simp only [dispForm, encDisp_and, regField_encDisp, dispField_encDisp]
    rfl
  | mov d r => exact decode_one formOf_mov hsup'
  | lsl d => exact decode_one formOf_lsl hsup'
  | rol d => exact decode_one formOf_rol hsup'

/-- What bytes decode to is what they encode, well formed and under the decoder's name. -/
theorem encode_decode {bs : List Byte} (h : decode f bs = .instr i rest) :
    bs = bytesOf (encode i) ++ rest ∧ WellFormed f i = true ∧ i.canonical = i := by
  rcases decode_eq_instr h with ⟨w, hbs, hfirst⟩ | ⟨w, d, k, hbs, rfl, hfirst⟩ | ⟨w, k, r, hbs, rfl, hfirst⟩
  all_goals obtain ⟨hform, hsup⟩ := firstWord_eq_some.1 hfirst
  · obtain ⟨henc, hops, hcan⟩ : i.IsReadFrom w := formOf_isReadFrom _ _ hform
    exact ⟨henc ▸ hbs, Bool.and_eq_true_iff.2 ⟨hops, hsup⟩, hcan⟩
  · obtain rfl : encSub 0 d 0b0000 = w := formOf_isReadFrom _ _ hform
    exact ⟨hbs, hsup, rfl⟩
  · obtain rfl : encSub 1 r 0b0000 = w := formOf_isReadFrom _ _ hform
    exact ⟨hbs, hsup, rfl⟩

end

end Sys2Proof
end

section
/-! SUPPORT. Where the fetch stops (10_state.md R26; 30_encoding.md R101; 70_reset_and_hazards.md R271, R275), and that
the step stops there. -/

namespace Sys2Proof.Machine

open Config

section
variable {s : State} {w : Word} {wa : Nat} {e : Refusal} {e' : Fault}

theorem fetchWord_outside (h : s.launch.device.flashWords ≤ wa) : fetchWord s wa = .refused (.fetchOutside wa) :=
  if_pos h

theorem fetchWord_busy (hin : wa < s.launch.device.flashWords) (hbusy : s.sectionBusy wa = true) :
    fetchWord s wa = .fault (.busySectionFetch wa) := by
  rw [fetchWord, if_neg (Nat.not_le.2 hin), if_pos hbusy]

theorem fetchInstr_wrapped (h : s.pcWrapped = true) :
    fetchInstr s = .refused (.fetchOutside (2 ^ s.launch.device.pcBits)) := if_pos h

theorem fetchInstr_of_fault (hwrap : s.pcWrapped = false) (h : fetchWord s s.pc.toNat = .fault e') :
    fetchInstr s = .fault e' := by
  simp [fetchInstr, hwrap, h]

theorem fetchInstr_of_refused (hwrap : s.pcWrapped = false) (h : fetchWord s s.pc.toNat = .refused e) :
    fetchInstr s = .refused e := by
  simp [fetchInstr, hwrap, h]

theorem fetchInstr_notInScope (hwrap : s.pcWrapped = false) (hword : fetchWord s s.pc.toNat = .next w)
    (hfirst : firstWord s.launch.device.features w = none) : fetchInstr s = .refused (.notInScope w) := by
  simp [fetchInstr, hwrap, hword, hfirst]

/-- The second word of LDS or STS is fetched as the first is (R53, R114). -/
theorem fetchInstr_second_refused (hwrap : s.pcWrapped = false) (hword : fetchWord s s.pc.toNat = .next w)
    (hfirst : (∃ d, firstWord s.launch.device.features w = some (.ldsAbs d)) ∨
      ∃ r, firstWord s.launch.device.features w = some (.stsAbs r))
    (hsecond : fetchWord s (s.pc.toNat + 1) = .refused e) : fetchInstr s = .refused e := by
  rcases hfirst with ⟨d, hfirst⟩ | ⟨r, hfirst⟩
  · simp [fetchInstr, hwrap, hword, hfirst, hsecond]
  · simp [fetchInstr, hwrap, hword, hfirst, hsecond]

/-- Where the core is next, the step fetches, and executes what it fetched. -/
theorem step_eq_fetch (h : s.coreIsNext) : step s = andThen (fetchInstr s) fun i => exec i s := by
  have ⟨_, _, _, hawake⟩ := h
  rw [step_of_coreIsNext h, coreTurn, if_neg (by simp [hawake])]

theorem step_of_fetch_refused (h : s.coreIsNext) (hfetch : fetchInstr s = .refused e) : step s = .refused e := by
  rw [step_eq_fetch h, hfetch, andThen_refused]

theorem step_of_fetch_fault (h : s.coreIsNext) (hfetch : fetchInstr s = .fault e') : step s = .fault e' := by
  rw [step_eq_fetch h, hfetch, andThen_fault]

theorem step_of_atEnd (h : s.atEnd = true) : step s = .fault .endOfRun := if_pos h

end

end Sys2Proof.Machine
end

section
/-! The obligations about the encoding: the decoder and the encoder, names of one word, and where a step stops before
any instruction. -/

namespace Sys2Proof.Proofs

open Config Machine

/-- Settles O4, format by format: the fixed bits of the word lead to the stage that reads it. -/
theorem decodeOfEncode : Obligations.DecodeOfEncode := by
  unfold Obligations.DecodeOfEncode
  exact fun f i rest hwf => decode_encode hwf

/-- Settles O5, stage by stage: the bits a stage tests and the fields it reads make up the word. -/
theorem encodeOfDecode : Obligations.EncodeOfDecode := by
  unfold Obligations.EncodeOfDecode
  exact fun f bs i rest hdecode => encode_decode hdecode

/-- Settles O6: the decoder's name for an instruction is one of R98's table, row by row. -/
theorem namesOfOneWord : Obligations.NamesOfOneWord := by
  unfold Obligations.NamesOfOneWord
  exact ⟨⟨rfl, rfl, rfl, rfl, rfl, rfl, rfl, rfl⟩, ⟨rfl, rfl, rfl, rfl, rfl, rfl, rfl, rfl⟩,
    fun d => ⟨rfl, rfl, rfl, rfl⟩, fun d => ⟨rfl, rfl⟩, fun i => (decodedName_canonical i).encode_eq,
    fun i s => (decodedName_canonical i).exec_eq s, ⟨rfl, rfl, fun s => rfl⟩, ⟨rfl, rfl, fun s => rfl⟩⟩

/-- Settles O56: each stop of the fetch is the step's, and the end of the run comes before the fetch. -/
theorem stepStops : Obligations.StepStops := by
  unfold Obligations.StepStops
  refine ⟨fun s hnext => ⟨fun w hwrap hin hbusy hdecode => ?_, fun hwrap hbusy hlast hdecode => ?_,
    fun hwrap hin hbusy => ?_, fun hwrap hout => ?_, fun hwrap => ?_⟩, fun s hwrap hend => ?_⟩
  · obtain ⟨hw, hfirst⟩ := decode_eq_notInScope hdecode
    have hword : fetchWord s s.pc.toNat = .next w := hw ▸ fetchWord_readable hin hbusy
    exact ⟨step_of_fetch_refused hnext (fetchInstr_notInScope hwrap hword hfirst), hw⟩
  · have hword := fetchWord_readable (by omega) hbusy
    have hsecond := fetchWord_outside hlast.ge
    rw [← hlast]
    exact step_of_fetch_refused hnext
      (fetchInstr_second_refused hwrap hword (firstWord_of_decode_truncated hdecode) hsecond)
  · exact step_of_fetch_fault hnext (fetchInstr_of_fault hwrap (fetchWord_busy hin hbusy))
  · exact step_of_fetch_refused hnext (fetchInstr_of_refused hwrap (fetchWord_outside hout))
  · exact step_of_fetch_refused hnext (fetchInstr_wrapped hwrap)
  · exact step_of_atEnd (by simp [State.atEnd, hend, hwrap])

/-- Settles O7, word by word through the decoder. -/
theorem sampleWords : Obligations.SampleWords := by
  unfold Obligations.SampleWords
  decide

end Sys2Proof.Proofs
end

section
/-! SUPPORT. The register copies and the loads (40_data_transfer_register_and_load.md): what they leave unchanged, and
what a load does by what its data address reaches (R56, R110, R127). -/

namespace Sys2Proof.Machine

open Config

/-! ## The frame of a copy or a load -/

/-- Only general registers, the count of free values and the recorded I/O accesses may differ, which are now `es`. -/
def Loaded (es : List IoEvent) (s u : State) : Prop :=
  u = { s with regs := u.regs, draws := u.draws, ioEvents := es }

section
variable {es : List IoEvent} {s u : State}

theorem Loaded.refl : Loaded s.ioEvents s s := rfl

theorem Loaded.setReg (h : Loaded es s u) (d : Reg) (v : Byte) : Loaded es s (u.setReg d v) := by
  unfold Loaded at *
  rw [h]
  rfl

theorem Loaded.setDataPtr (h : Loaded es s u) (p : Ptr) (v : Word) : Loaded es s (u.setDataPtr p v) := by
  unfold State.setDataPtr
  split
  · exact h.setReg _ _
  · exact (h.setReg _ _).setReg _ _

/-- A write of a data pointer writes general registers alone. -/
theorem State.setDataPtr_state (s : State) (p : Ptr) (v : Word) :
    s.setDataPtr p v = { s with regs := (s.setDataPtr p v).regs } := by
  unfold State.setDataPtr
  split <;> rfl

/-- The frame of a load that begins with the write of a data pointer. -/
theorem Loaded.of_setDataPtr {p : Ptr} {v : Word} (h : Loaded es (s.setDataPtr p v) u) : Loaded es s u := by
  unfold Loaded at *
  rwa [State.setDataPtr_state] at h

/-- All of the frame but the general registers, after the end of the instruction. -/
theorem Loaded.retire_frame (h : Loaded es s u) (n : Nat) :
    (retire n u).sreg = s.sreg ∧ SameMem s (retire n u) ∧ SameAside s (retire n u) ∧ (retire n u).ioEvents = es ∧
      Ended n s (retire n u) := by
  unfold Loaded at h
  rw [h]
  exact ⟨rfl, fun _ _ => rfl,
    ⟨⟨rfl, rfl⟩, ⟨rfl, rfl, rfl, rfl, rfl⟩, ⟨rfl, rfl, rfl⟩, rfl, rfl, rfl, rfl, rfl, rfl, rfl, rfl⟩, rfl,
    retire_advanced n _, rfl, rfl⟩

/-! ## Registers that are not written -/

theorem SameRegsBut.setReg {ds : List Reg} (h : SameRegsBut ds s u) {d : Reg} (hd : d ∈ ds) (v : Byte) :
    SameRegsBut ds s (u.setReg d v) := by
  intro j hj
  have hne : j ≠ d := fun e => hj (e ▸ hd)
  rw [State.reg_setReg_other _ _ hne]
  exact h j hj

theorem SameRegsBut.setDataPtr {ds : List Reg} (h : SameRegsBut ds s u) {p : Ptr} (hlo : p.lo ∈ ds) (hhi : p.hi ∈ ds)
    (v : Word) : SameRegsBut ds s (u.setDataPtr p v) := by
  unfold State.setDataPtr
  split
  · exact h.setReg hlo _
  · exact (h.setReg hlo _).setReg hhi _

theorem SameRegsBut.of_regs_eq {ds : List Reg} (h : u.regs = s.regs) : SameRegsBut ds s u :=
  fun j _ => State.reg_congr h j

theorem Ptr.has_eq_false_iff {p : Ptr} {d : Reg} : p.has d = false ↔ d ≠ p.lo ∧ d ≠ p.hi := by
  simp [Ptr.has]

/-- The whole frame of an instruction that writes `d` and no other register (R111, R113, R114). -/
theorem Loaded.setReg_retire_frame (h : Loaded es s u) (hregs : u.regs = s.regs) (d : Reg) (v : Byte) (n : Nat) :
    (retire n (u.setReg d v)).reg d = v ∧ SameRegsBut [d] s (retire n (u.setReg d v)) ∧
      (retire n (u.setReg d v)).sreg = s.sreg ∧ SameMem s (retire n (u.setReg d v)) ∧
      SameAside s (retire n (u.setReg d v)) ∧ (retire n (u.setReg d v)).ioEvents = es ∧
      Ended n s (retire n (u.setReg d v)) :=
  ⟨State.reg_setReg_same u d v, (SameRegsBut.of_regs_eq hregs).setReg List.mem_cons_self v,
    (h.setReg d v).retire_frame n⟩

/-- Writing a register that is no half of a pointer leaves it as a data address. -/
theorem State.dataPtr_setReg_other (s : State) {p : Ptr} {d : Reg} (v : Byte) (h : p.has d = false) :
    (s.setReg d v).dataPtr p = s.dataPtr p := by
  obtain ⟨hlo, _⟩ := Ptr.has_eq_false_iff.1 h
  simp only [State.dataPtr, State.setReg_launch, State.ptr_setReg_other s p d v h, State.reg_setReg_other s v hlo.symm]

/-! ## Data pointers (R110) -/

theorem smallDataSpace_iff (d : Device) :
    smallDataSpace d = true ↔ d.ioBase + d.ioCount ≤ 256 ∧ d.ramEnd < 256 := by
  simp [smallDataSpace]

/-- Where the data space is small a data pointer is the low register alone. -/
theorem State.dataPtr_small (p : Ptr) (h : smallDataSpace s.launch.device = true) :
    (s.dataPtr p).toNat = (s.reg p.lo).toNat := by
  have hlt : (s.reg p.lo).toNat < 256 := (s.reg p.lo).isLt
  rw [State.dataPtr, if_pos h, BitVec.toNat_setWidth]
  omega

/-- Where the data space is small a data pointer moves modulo 256 (log 45). -/
theorem State.movedPtr_small (p : Ptr) (n : Word) (h : smallDataSpace s.launch.device = true) :
    (s.movedPtr p n).toNat = ((s.reg p.lo).toNat + n.toNat) % 256 := by
  rw [State.movedPtr, if_pos h, lowByte, BitVec.toNat_setWidth, BitVec.extractLsb'_toNat, BitVec.toNat_add,
    State.dataPtr_small p h]
  omega

/-! ## Data reads by what the address reaches (R56) -/

theorem memRead_unwritten {a : Word} {b : Nat} (hplace : dataPlace s.launch.device a = .sram b)
    (hread : s.mem.read .sram b = none) : memRead s a = .fault (.readUnwritten b) := by
  simp only [memRead, hplace, hread]

theorem memRead_nothing {a : Word} {b : Nat} (hplace : dataPlace s.launch.device a = .nothing b) :
    memRead s a = .refused (.unimplementedDataAddress b) := by
  simp only [memRead, hplace]

/-- Where the data address holds a byte, the read gives it and leaves the registers. -/
theorem memRead_loaded {a : Word} {v : Byte} (h : s.dataByte a = some v) :
    ∃ u, memRead s a = .next (v, u) ∧ Loaded (s.eventsAfterRead a) s u ∧ u.regs = s.regs := by
  obtain ⟨u, hread, hu⟩ := memRead_dataByte h
  refine ⟨u, hread, ?_, by rw [hu]⟩
  unfold Loaded
  rw [hu]

/-- A load gives its register the byte at the data address. -/
theorem loadAt_loaded {d : Reg} {a : Word} {v : Byte} (h : s.dataByte a = some v) :
    ∃ u, loadAt d a s = .next (u.setReg d v) ∧ Loaded (s.eventsAfterRead a) s u ∧ u.regs = s.regs := by
  obtain ⟨u, hread, hu, hregs⟩ := memRead_loaded h
  exact ⟨u, by rw [loadAt, hread, andThen_next], hu, hregs⟩

theorem loadAt_unwritten {d : Reg} {a : Word} {b : Nat} (hplace : dataPlace s.launch.device a = .sram b)
    (hread : s.mem.read .sram b = none) : loadAt d a s = .fault (.readUnwritten b) := by
  rw [loadAt, memRead_unwritten hplace hread, andThen_fault]

theorem loadAt_nothing {d : Reg} {a : Word} {b : Nat} (hplace : dataPlace s.launch.device a = .nothing b) :
    loadAt d a s = .refused (.unimplementedDataAddress b) := by
  rw [loadAt, memRead_nothing hplace, andThen_refused]

/-- Each form of `loadForm` is the one load from its data address (R114 to R116, R119, R122, R125, R126). -/
theorem exec_of_loadForm {i : Instr} {d : Reg} {a : Word} (h : loadForm s i = some (d, a)) :
    exec i s = finish i.words (loadAt d a s) := by
  cases i with
  | lds _ _ | lds16 _ _ | ldX _ | ldY _ | ldZ _ | lddY _ _ | lddZ _ _ =>
    cases h
    rfl
  | _ => cases h

/-! ## Reads after the pointer is written (R118, R127) -/

/-- What the I/O space reads does not depend on the data pointers. -/
theorem ioRead_setDataPtr_value (p : Ptr) (v : Word) (b : IoAddr) :
    (ioRead (s.setDataPtr p v) b).1 = (ioRead s b).1 := by
  rw [State.setDataPtr_state, ioRead, ioRead]
  cases ioReg s.launch b <;> rfl

/-- A data address that is not that of a half of the pointer reads as before the pointer was written. -/
theorem State.dataByte_setDataPtr {p : Ptr} {a : Word} (v : Word) (h : s.hitsPtr p a = false) :
    (s.setDataPtr p v).dataByte a = s.dataByte a := by
  unfold State.dataByte
  rw [State.setDataPtr_launch]
  cases hplace : dataPlace s.launch.device a with
  | reg k =>
    obtain ⟨hmapped, rfl, _⟩ := dataPlace_reg hplace
    have hne : k ≠ p.lo ∧ k ≠ p.hi := by
      constructor <;> rintro rfl <;> simp [State.hitsPtr, hmapped] at h
    exact congrArg some (State.reg_setDataPtr_other s p v hne.1 (.inl hne.2))
  | io b => exact congrArg some (ioRead_setDataPtr_value p v b)
  | sram b => simp only [State.setDataPtr_mem]
  | nothing b => rfl

theorem State.eventsAfterRead_setDataPtr (p : Ptr) (v a : Word) :
    (s.setDataPtr p v).eventsAfterRead a = s.eventsAfterRead a := by
  simp only [State.eventsAfterRead, State.setDataPtr_launch, State.setDataPtr_draws, State.setDataPtr_ioEvents]

/-! ## Loads that update their pointer -/

/-- The load with post-increment, or with pre-decrement. -/
def updLoad (p : Ptr) (pre : Bool) (d : Reg) (s : State) : Res State := if pre then loadDec p d s else loadInc p d s

/-- Each form of `updLoadForm` is the one load that updates its pointer (R117, R118, R120, R121, R123, R124). -/
theorem exec_of_updLoadForm {i : Instr} {p : Ptr} {pre : Bool} {d : Reg} (h : updLoadForm i = some (p, pre, d)) :
    exec i s = finish 1 (updLoad p pre d s) := by
  cases i with
  | ldXInc _ | ldXDec _ | ldYInc _ | ldYDec _ | ldZInc _ | ldZDec _ =>
    cases h
    rfl
  | _ => cases h

theorem State.undefinedUpd_iff {p : Ptr} {pre : Bool} {r : Reg} :
    s.undefinedUpd p pre r = true ↔ p.has r = true ∨ s.hitsPtr p (s.updAddr p pre) = true :=
  Bool.or_eq_true_iff

theorem State.undefinedUpd_eq_false_iff {p : Ptr} {pre : Bool} {r : Reg} :
    s.undefinedUpd p pre r = false ↔ p.has r = false ∧ s.hitsPtr p (s.updAddr p pre) = false :=
  Bool.or_eq_false_iff

theorem State.updPtr_post (p : Ptr) : s.updPtr p false = s.movedPtr p 1 := by
  simp [State.updPtr]

theorem State.updPtr_pre (p : Ptr) : s.updPtr p true = s.movedPtr p (-1) := by
  simp [State.updPtr]

section
variable {p : Ptr} {pre : Bool} {d : Reg}

theorem updLoad_undefined (h : s.undefinedUpd p pre d = true) :
    updLoad p pre d s = .fault .undefinedOperandCombination := by
  have hundef := State.undefinedUpd_iff.1 h
  cases pre with
  | false => exact if_pos (State.updAddr_post p ▸ hundef)
  | true => exact if_pos (State.updAddr_pre p ▸ hundef)

/-- A defined post-increment reads at the pointer, then writes the pointer and the register (R117). -/
theorem updLoad_post (h : s.undefinedUpd p false d = false) :
    updLoad p false d s = andThen (memRead s (s.updAddr p false)) fun r =>
      .next ((r.2.setDataPtr p (s.updPtr p false)).setReg d r.1) := by
  have hundef := State.undefinedUpd_iff.not.1 (Bool.eq_false_iff.1 h)
  rw [State.updAddr_post] at hundef ⊢
  rw [State.updPtr_post]
  exact if_neg hundef

/-- A defined pre-decrement writes the pointer, then is a plain load at it (R118). -/
theorem updLoad_pre (h : s.undefinedUpd p true d = false) :
    updLoad p true d s = loadAt d (s.updAddr p true) (s.setDataPtr p (s.updPtr p true)) := by
  have hundef := State.undefinedUpd_iff.not.1 (Bool.eq_false_iff.1 h)
  rw [State.updAddr_pre] at hundef ⊢
  rw [State.updPtr_pre]
  exact if_neg hundef

theorem updLoad_unwritten {b : Nat} (h : s.undefinedUpd p pre d = false)
    (hplace : dataPlace s.launch.device (s.updAddr p pre) = .sram b) (hread : s.mem.read .sram b = none) :
    updLoad p pre d s = .fault (.readUnwritten b) := by
  cases pre with
  | false => rw [updLoad_post h, memRead_unwritten hplace hread, andThen_fault]
  | true =>
    rw [updLoad_pre h]
    exact loadAt_unwritten (by rwa [State.setDataPtr_launch]) (by rwa [State.setDataPtr_mem])

theorem updLoad_nothing {b : Nat} (h : s.undefinedUpd p pre d = false)
    (hplace : dataPlace s.launch.device (s.updAddr p pre) = .nothing b) :
    updLoad p pre d s = .refused (.unimplementedDataAddress b) := by
  cases pre with
  | false => rw [updLoad_post h, memRead_nothing hplace, andThen_refused]
  | true =>
    rw [updLoad_pre h]
    exact loadAt_nothing (by rwa [State.setDataPtr_launch])

/-- The register file after a write of a data pointer depends on the register file before alone. -/
theorem State.setDataPtr_regs_congr (hregs : u.regs = s.regs) (hlaunch : u.launch = s.launch) (v : Word) :
    (u.setDataPtr p v).regs = (s.setDataPtr p v).regs := by
  unfold State.setDataPtr
  rw [hlaunch]
  split <;> simp only [State.setPtr, State.setReg_regs, hregs]

theorem State.dataPtr_congr (hregs : u.regs = s.regs) (hlaunch : u.launch = s.launch) :
    u.dataPtr p = s.dataPtr p := by
  simp only [State.dataPtr, State.ptr, State.reg_congr hregs, hlaunch]

/-- A defined load that updates its pointer loads the byte the address had before the update, and writes the pointer
in either order (R117, R118). -/
theorem updLoad_loaded {v : Byte} (h : s.undefinedUpd p pre d = false)
    (hbyte : s.dataByte (s.updAddr p pre) = some v) :
    ∃ u, updLoad p pre d s = .next (u.setReg d v) ∧ Loaded (s.eventsAfterRead (s.updAddr p pre)) s u ∧
      u.regs = (s.setDataPtr p (s.updPtr p pre)).regs := by
  cases pre with
  | false =>
    obtain ⟨u, hread, hu, hregs⟩ := memRead_loaded hbyte
    have hlaunch : u.launch = s.launch := by rw [hu]
    refine ⟨u.setDataPtr p (s.updPtr p false), ?_, hu.setDataPtr p _, State.setDataPtr_regs_congr hregs hlaunch _⟩
    rw [updLoad_post h, hread, andThen_next]
  | true =>
    obtain ⟨_, hhits⟩ := State.undefinedUpd_eq_false_iff.1 h
    rw [← State.dataByte_setDataPtr (s.updPtr p true) hhits] at hbyte
    obtain ⟨u, hload, hu, hregs⟩ := loadAt_loaded (d := d) hbyte
    rw [State.eventsAfterRead_setDataPtr] at hu
    exact ⟨u, (updLoad_pre h).trans hload, hu.of_setDataPtr, hregs⟩

/-- The pointer and its registers after such a load (R110(d)). -/
theorem updLoad_pointer (v : Byte) (hd : p.has d = false) (hlaunch : u.launch = s.launch)
    (hregs : u.regs = (s.setDataPtr p (s.updPtr p pre)).regs) :
    (u.setReg d v).dataPtr p = s.updPtr p pre ∧ KeepsHigh p s (u.setReg d v) ∧
      SameRegsBut [d, p.lo, p.hi] s (u.setReg d v) := by
  have hne : p.hi ≠ p.lo := by cases p <;> decide
  obtain ⟨_, hhi⟩ := Ptr.has_eq_false_iff.1 hd
  refine ⟨?_, fun hsmall => ?_, ?_⟩
  · rw [State.dataPtr_setReg_other u v hd, State.dataPtr_congr hregs (by rw [hlaunch, State.setDataPtr_launch])]
    cases pre with
    | false => rw [State.updPtr_post, State.dataPtr_setDataPtr_movedPtr]
    | true => rw [State.updPtr_pre, State.dataPtr_setDataPtr_movedPtr]
  · rw [State.reg_setReg_other u v hhi.symm, State.reg_congr hregs]
    exact State.reg_setDataPtr_other s p _ hne (.inr hsmall)
  · have hsame : SameRegsBut [d, p.lo, p.hi] s u := by
      intro j hj
      rw [State.reg_congr hregs]
      exact (SameRegsBut.of_regs_eq rfl).setDataPtr (by simp) (by simp) _ j hj
    exact hsame.setReg (by simp) v

end

end

/-! ## The operand of LDI -/

/-- LDI names R16 to R31 on every device, which are the registers that every device has (R7, R21). -/
theorem wellFormed_ldi_iff (f : Features) (d : Reg) (k : Byte) :
    WellFormed f (.ldi d k) = true ↔ upperReg d = true := by
  have hsupported : upperReg d = true → (Instr.ldi d k).supported f = true := by
    intro hd
    simp [Instr.supported, Instr.hasForm, Instr.regsExist, Instr.dataRegs, hd]
  rw [WellFormed, Bool.and_eq_true]
  exact ⟨And.left, fun hd => ⟨hd, hsupported hd⟩⟩

end Sys2Proof.Machine
end

section
/-! The obligations about the register copies and the loads. -/

namespace Sys2Proof.Proofs

open Machine

/-- Settles O11: one write of a register for MOV; for MOVW the second write leaves the register of the first. -/
theorem registerCopies : Obligations.RegisterCopies := by
  unfold Obligations.RegisterCopies
  constructor
  · intro d r s
    exact ⟨_, rfl, Loaded.refl.setReg_retire_frame rfl d (s.reg r) 1⟩
  · intro d r s _ _
    have hne : d ≠ d + 1 := by bv_omega
    refine ⟨_, rfl, ?_, State.reg_setReg_same _ _ _,
      ((SameRegsBut.of_regs_eq rfl).setReg (by simp) _).setReg (by simp) _,
      ((Loaded.refl.setReg _ _).setReg _ _).retire_frame 1⟩
    rw [retire_reg, State.reg_setReg_other _ _ hne, State.reg_setReg_same]

/-- Settles O12: LDI reads nothing, so that its one write of a register is all there is. -/
theorem loadImmediate : Obligations.LoadImmediate := by
  unfold Obligations.LoadImmediate
  refine ⟨fun d k s => ?_, fun f d k => ?_, rfl, rfl⟩
  · exact ⟨_, rfl, Loaded.refl.setReg_retire_frame rfl d k 1⟩
  · exact (wellFormed_ldi_iff f d k).trans decide_eq_true_iff

/-- Settles O23: every form is the one load from its data address, whose answer is that of the data read. -/
theorem plainLoads : Obligations.PlainLoads := by
  unfold Obligations.PlainLoads
  intro i d a s hform
  rw [exec_of_loadForm hform]
  refine ⟨fun v hbyte => ?_, fun b hplace hread => ?_, fun b hplace => ?_⟩
  · obtain ⟨u, hload, hu, hregs⟩ := loadAt_loaded (d := d) hbyte
    rw [hload, finish_next]
    exact ⟨_, rfl, hu.setReg_retire_frame hregs d v i.words⟩
  · rw [loadAt_unwritten hplace hread, finish_fault]
  · rw [loadAt_nothing hplace, finish_refused]

/-- Settles O24: where the combination is defined the address is not that of a half of the pointer, so that the byte
read is the same before and after the pointer is written. -/
theorem updatingLoads : Obligations.UpdatingLoads := by
  unfold Obligations.UpdatingLoads
  refine ⟨fun s p n => ?_, fun i p pre d s hform => ?_⟩
  · split
    · next h =>
      have hsmall := (smallDataSpace_iff _).2 h
      exact ⟨State.dataPtr_small p hsmall, State.movedPtr_small p n hsmall⟩
    · next h =>
      have hwide : smallDataSpace s.launch.device = false := Bool.eq_false_iff.2 fun e => h ((smallDataSpace_iff _).1 e)
      exact ⟨State.dataPtr_wide p hwide, State.movedPtr_wide p n hwide⟩
  · rw [exec_of_updLoadForm hform]
    refine ⟨fun hundef => ?_, fun hdef => ⟨fun v hbyte => ?_, fun b hplace hread => ?_, fun b hplace => ?_⟩⟩
    · rw [updLoad_undefined hundef, finish_fault]
    · obtain ⟨u, hload, hu, hregs⟩ := updLoad_loaded hdef hbyte
      obtain ⟨hd, _⟩ := State.undefinedUpd_eq_false_iff.1 hdef
      have hlaunch : u.launch = s.launch := by rw [hu]
      obtain ⟨hptr, hhigh, hsame⟩ := updLoad_pointer v hd hlaunch hregs
      rw [hload, finish_next]
      exact ⟨_, rfl, State.reg_setReg_same _ _ _, hptr, hhigh, hsame, (hu.setReg _ _).retire_frame 1⟩
    · rw [updLoad_unwritten hdef hplace hread, finish_fault]
    · rw [updLoad_nothing hdef hplace, finish_refused]

end Sys2Proof.Proofs
end

section
/-! SUPPORT. The stores (41_data_transfer_store.md): what a store does by what its data address reaches (R57), and that
it may come before or after the write of its pointer (R135, R144). -/

namespace Sys2Proof.Machine

open Config

section
variable {s u : State}

/-! ## Data writes by what the address reaches (R57) -/

theorem memWrite_reg {a : Word} {k : Reg} (hplace : dataPlace s.launch.device a = .reg k) (v : Byte) :
    memWrite s a v = .next (s.setReg k v) := by
  simp only [memWrite, hplace]

theorem memWrite_io {a : Word} {b : IoAddr} (hplace : dataPlace s.launch.device a = .io b) (v : Byte) :
    memWrite s a v = ioWrite s b v := by
  simp only [memWrite, hplace]

theorem memWrite_sram {a : Word} {b : Nat} (hplace : dataPlace s.launch.device a = .sram b) (v : Byte) :
    memWrite s a v = .next { s with mem := s.mem.write .sram b v } := by
  simp only [memWrite, hplace]

theorem memWrite_nothing {a : Word} {b : Nat} (hplace : dataPlace s.launch.device a = .nothing b) (v : Byte) :
    memWrite s a v = .refused (.unimplementedDataAddress b) := by
  simp only [memWrite, hplace]

/-! ## Data writes after a register is written -/

/-- Both orders of the two writes give the same register file. -/
theorem State.setReg_comm (s : State) {d k : Reg} (h : d ≠ k) (v w : Byte) :
    (s.setReg d w).setReg k v = (s.setReg k v).setReg d w := by
  have hne : d.toNat ≠ k.toNat := fun e => h (BitVec.eq_of_toNat_eq e)
  simp only [State.setReg, Vector.set_comm _ _ hne]

theorem andThen_ite (c : Prop) [Decidable c] {α β : Type} (r r' : Res α) (k : α → Res β) :
    andThen (if c then r else r') k = if c then andThen r k else andThen r' k :=
  apply_ite (andThen · k) c r r'

/-- The operation neither reads nor writes the general registers: a write of one may as well come after it. -/
def IgnoresRegs (op : State → Res State) : Prop :=
  ∀ s d w, op (s.setReg d w) = andThen (op s) fun t => .next (t.setReg d w)

theorem writeSreg_ignoresRegs (v : Byte) : IgnoresRegs (writeSreg · v) := by
  intro s d w
  simp only [writeSreg, andThen_ite]
  rfl

theorem spmcrWrite_setReg (v : Byte) (d : Reg) (w : Byte) :
    spmcrWrite (s.setReg d w) v = (spmcrWrite s v).setReg d w := by
  simp only [spmcrWrite, apply_ite (State.setReg · d w)]
  rfl

theorem eepromRead_ignoresRegs : IgnoresRegs eepromRead := by
  intro s d w
  simp only [eepromRead, andThen_ite]
  rfl

theorem eepromWriteStart_ignoresRegs : IgnoresRegs eepromWriteStart := by
  intro s d w
  simp only [eepromWriteStart, andThen_ite]
  rfl

/-- The strobes EERE and EEWE ignore the registers, and so do the bits beside them. -/
theorem eecrWrite_ignoresRegs (v : Byte) : IgnoresRegs (eecrWrite · v) := by
  intro s d w
  simp only [eecrWrite, andThen_ite, ← eepromRead_ignoresRegs _ d w]
  cases hwindow : s.eeWindow with
  | closed | stale =>
    simp only [State.setReg_eeWindow, hwindow, andThen_ite]
    rfl
  | _ =>
    simp only [State.setReg_eeWindow, hwindow, ← eepromWriteStart_ignoresRegs _ d w]
    rfl

/-- A write of the I/O space does not depend on the general registers (R58). -/
theorem ioWrite_ignoresRegs (b : IoAddr) (v : Byte) : IgnoresRegs (ioWrite · b v) := by
  intro s d w
  simp only [ioWrite, State.setReg_launch]
  cases ioReg s.launch b with
  | sreg => exact writeSreg_ignoresRegs v s d w
  | eearh | eearl | eedr =>
    simp only [eepromRegWrite, andThen_ite]
    rfl
  | eecr => exact eecrWrite_ignoresRegs v s d w
  | spmcr => exact congrArg Host.Outcome.next (spmcrWrite_setReg v d w)
  | sph | spl | rampz | mcucr | unmodelled => rfl

/-- A data write anywhere but in a register may as well come before the write of that register. -/
theorem memWrite_setReg {a : Word} {d : Reg} (h : dataPlace s.launch.device a ≠ .reg d) (v w : Byte) :
    memWrite (s.setReg d w) a v = andThen (memWrite s a v) fun t => .next (t.setReg d w) := by
  cases hplace : dataPlace s.launch.device a with
  | reg k =>
    have hne : d ≠ k := fun e => h (e ▸ hplace)
    rw [memWrite_reg hplace, memWrite_reg (by rwa [State.setReg_launch]), andThen_next, State.setReg_comm s hne]
  | io b =>
    rw [memWrite_io hplace, memWrite_io (by rwa [State.setReg_launch])]
    exact ioWrite_ignoresRegs b v s d w
  | sram b =>
    rw [memWrite_sram hplace, memWrite_sram (by rwa [State.setReg_launch])]
    rfl
  | nothing b => rw [memWrite_nothing hplace, memWrite_nothing (by rwa [State.setReg_launch]), andThen_refused]

/-! ## Data writes after a pointer is written (R135, R144) -/

section
variable {p : Ptr} {a : Word}

/-- An address that is not that of a half of the pointer reaches neither of its registers. -/
theorem State.dataPlace_ne_of_hitsPtr (h : s.hitsPtr p a = false) :
    dataPlace s.launch.device a ≠ .reg p.lo ∧ dataPlace s.launch.device a ≠ .reg p.hi := by
  constructor <;>
  · intro hplace
    obtain ⟨hmapped, haddr, _⟩ := dataPlace_reg hplace
    simp [State.hitsPtr, hmapped, haddr] at h

theorem Ptr.has_eq_false_of_hitsPtr {k : Reg} (h : s.hitsPtr p a = false)
    (hplace : dataPlace s.launch.device a = .reg k) : p.has k = false := by
  obtain ⟨hlo, hhi⟩ := State.dataPlace_ne_of_hitsPtr h
  rw [hplace] at hlo hhi
  exact Ptr.has_eq_false_iff.2 ⟨fun e => hlo (e ▸ rfl), fun e => hhi (e ▸ rfl)⟩

/-- A data write elsewhere than in the pointer's own registers may come before or after the write of the pointer. -/
theorem memWrite_setDataPtr (h : s.hitsPtr p a = false) (v : Byte) (w : Word) :
    memWrite (s.setDataPtr p w) a v = andThen (memWrite s a v) fun t => .next (t.setDataPtr p w) := by
  obtain ⟨hlo, hhi⟩ := State.dataPlace_ne_of_hitsPtr h
  have hlaunch : Gives (memWrite s a v) fun t => t.launch = s.launch := fun t ht =>
    (memWrite_effect (W := True) (fun _ => trivial) v t ht).launch
  cases hsmall : smallDataSpace s.launch.device with
  | true =>
    rw [State.setDataPtr, if_pos hsmall, memWrite_setReg hlo]
    cases hwrite : memWrite s a v with
    | next t => simp [State.setDataPtr, hlaunch t hwrite, hsmall]
    | fault | refused => rfl
  | false =>
    rw [State.setDataPtr_wide p w hsmall, State.setPtr, memWrite_setReg (by rwa [State.setReg_launch]),
      memWrite_setReg hlo]
    cases hwrite : memWrite s a v with
    | next t => simp [State.setDataPtr, State.setPtr, hlaunch t hwrite, hsmall]
    | fault | refused => rfl

end

/-! ## Stores -/

/-- Each form of `storeForm` is the one store at its data address (R131 to R133, R136, R139, R140, R143). -/
theorem exec_of_storeForm {i : Instr} {r : Reg} {a : Word} (h : storeForm s i = some (r, a)) :
    exec i s = finish i.words (memWrite s a (s.reg r)) := by
  cases i with
  | sts _ _ | sts16 _ _ | stX _ | stY _ | stZ _ | stdY _ _ | stdZ _ _ =>
    cases h
    rfl
  | _ => cases h

/-- All of the frame but the general registers, after the end of an instruction that writes one byte of SRAM. -/
theorem Loaded.write_sram_retire_frame {es : List IoEvent} {t : State} {b n : Nat} {v : Byte} (h : Loaded es s u)
    (ht : t = retire n { u with mem := u.mem.write .sram b v }) :
    (t.mem.read .sram b = some v ∧ SameMemBut .sram (fun c => c = b) s t) ∧
      t.sreg = s.sreg ∧ SameAside s t ∧ t.ioEvents = es ∧ Ended n s t := by
  obtain ⟨hsreg, hmem, haside, hevents, hended⟩ := h.retire_frame n
  subst ht
  refine ⟨⟨u.mem.read_write_same .sram b v, fun sp c hc => ?_⟩, hsreg, haside, hevents, hended⟩
  have hother : ¬(sp = .sram ∧ b = c) := fun ⟨hsp, hb⟩ => hc ⟨hsp, hb.symm⟩
  exact (u.mem.read_write_other v hother).trans (hmem sp c)

/-! ## Stores that update their pointer -/

/-- The store with post-increment, or with pre-decrement. -/
def updStore (p : Ptr) (pre : Bool) (r : Reg) (s : State) : Res State := if pre then storeDec p r s else storeInc p r s

/-- Each form of `updStoreForm` is the one store that updates its pointer (R134, R135, R137, R138, R141, R142). -/
theorem exec_of_updStoreForm {i : Instr} {p : Ptr} {pre : Bool} {r : Reg} (h : updStoreForm i = some (p, pre, r)) :
    exec i s = finish 1 (updStore p pre r s) := by
  cases i with
  | stXInc _ | stXDec _ | stYInc _ | stYDec _ | stZInc _ | stZDec _ =>
    cases h
    rfl
  | _ => cases h

section
variable {p : Ptr} {pre : Bool} {r : Reg}

theorem updStore_undefined (h : s.undefinedUpd p pre r = true) :
    updStore p pre r s = .fault .undefinedOperandCombination := by
  have hundef := State.undefinedUpd_iff.1 h
  cases pre with
  | false => exact if_pos (State.updAddr_post p ▸ hundef)
  | true => exact if_pos (State.updAddr_pre p ▸ hundef)

/-- A defined store that updates its pointer, in either order of the two, is the store of what Rr was, after the pointer
is written. -/
theorem updStore_defined (h : s.undefinedUpd p pre r = false) :
    updStore p pre r s = memWrite (s.setDataPtr p (s.updPtr p pre)) (s.updAddr p pre) (s.reg r) := by
  have hundef := State.undefinedUpd_iff.not.1 (Bool.eq_false_iff.1 h)
  obtain ⟨hhas, hhits⟩ := State.undefinedUpd_eq_false_iff.1 h
  cases pre with
  | false =>
    rw [memWrite_setDataPtr hhits, State.updPtr_post, State.updAddr_post]
    rw [State.updAddr_post] at hundef
    exact if_neg hundef
  | true =>
    obtain ⟨hlo, hhi⟩ := Ptr.has_eq_false_iff.1 hhas
    rw [← State.reg_setDataPtr_other s p (s.updPtr p true) hlo (.inl hhi), State.updPtr_pre, State.updAddr_pre]
    rw [State.updAddr_pre] at hundef
    exact if_neg hundef

/-- The pointer and its registers after the update (R110(d)). -/
theorem setDataPtr_updPtr_pointer (s : State) (p : Ptr) (pre : Bool) :
    (s.setDataPtr p (s.updPtr p pre)).dataPtr p = s.updPtr p pre ∧ KeepsHigh p s (s.setDataPtr p (s.updPtr p pre)) ∧
      SameRegsBut [p.lo, p.hi] s (s.setDataPtr p (s.updPtr p pre)) := by
  have hne : p.hi ≠ p.lo := by cases p <;> decide
  refine ⟨?_, fun hsmall => State.reg_setDataPtr_other s p _ hne (.inr hsmall),
    (SameRegsBut.of_regs_eq rfl).setDataPtr (by simp) (by simp) _⟩
  cases pre with
  | false => rw [State.updPtr_post, State.dataPtr_setDataPtr_movedPtr]
  | true => rw [State.updPtr_pre, State.dataPtr_setDataPtr_movedPtr]

end

end

end Sys2Proof.Machine
end

section
/-! The obligations about the stores. -/

namespace Sys2Proof.Proofs

open Machine

/-- Settles O25: every form is the one data write at its address, whose four cases are those of R57. -/
theorem plainStores : Obligations.PlainStores := by
  unfold Obligations.PlainStores
  intro i r a s hform
  rw [exec_of_storeForm hform]
  split
  case h_1 k hplace =>
    rw [memWrite_reg hplace, finish_next]
    exact ⟨_, rfl, Loaded.refl.setReg_retire_frame rfl k (s.reg r) i.words⟩
  case h_2 b hplace => rw [memWrite_io hplace]
  case h_3 b hplace =>
    rw [memWrite_sram hplace, finish_next]
    obtain ⟨⟨hread, hother⟩, hframe⟩ := Loaded.refl.write_sram_retire_frame rfl
    exact ⟨_, rfl, hread, hother, fun _ _ => rfl, hframe⟩
  case h_4 b hplace => rw [memWrite_nothing hplace, finish_refused]

/-- Settles O26: a defined form is the data write after the pointer is written; on an I/O register the two may change
places, as the address is not that of a half of the pointer. -/
theorem updatingStores : Obligations.UpdatingStores := by
  unfold Obligations.UpdatingStores
  intro i p pre r s hform
  rw [exec_of_updStoreForm hform]
  refine ⟨fun hundef => by rw [updStore_undefined hundef, finish_fault], fun hdef => ?_⟩
  obtain ⟨_, hhits⟩ := State.undefinedUpd_eq_false_iff.1 hdef
  have hframe := (Loaded.refl (s := s)).setDataPtr p (s.updPtr p pre)
  rw [updStore_defined hdef]
  split
  case h_1 k hplace =>
    obtain ⟨hptr, hhigh, hsame⟩ := updLoad_pointer (s.reg r) (Ptr.has_eq_false_of_hitsPtr hhits hplace)
      (State.setDataPtr_launch s p (s.updPtr p pre)) rfl
    rw [memWrite_reg (by rwa [State.setDataPtr_launch]), finish_next]
    exact ⟨_, rfl, State.reg_setReg_same _ _ _, hptr, hhigh, hsame, (hframe.setReg _ _).retire_frame 1⟩
  case h_2 b hplace => rw [memWrite_setDataPtr hhits, memWrite_io hplace]
  case h_3 b hplace =>
    obtain ⟨hptr, hhigh, hsame⟩ := setDataPtr_updPtr_pointer s p pre
    rw [memWrite_sram (by rwa [State.setDataPtr_launch]), finish_next]
    obtain ⟨⟨hread, hother⟩, hrest⟩ := hframe.write_sram_retire_frame rfl
    exact ⟨_, rfl, hread, hother, hptr, hhigh, hsame, hrest⟩
  case h_4 b hplace => rw [memWrite_nothing (by rwa [State.setDataPtr_launch]), finish_refused]

end Sys2Proof.Proofs
end

section
/-! SUPPORT. LPM and ELPM (42_data_transfer_progmem_io_stack.md R150 to R157): what a read of program memory as data
gives, and the frame of an instruction that changes SP or RAMPZ. -/

namespace Sys2Proof.Machine

open Config

/-! ## The frame of an instruction that changes SP, RAMPZ or memory -/

/-- Only general registers, SP, RAMPZ, the memories, the count of free values and the recorded I/O accesses may differ,
which are now `es`. -/
def CoreOnly (es : List IoEvent) (s u : State) : Prop :=
  u = { s with regs := u.regs, sp := u.sp, rampz := u.rampz, mem := u.mem, draws := u.draws, ioEvents := es }

section
variable {es es' : List IoEvent} {s t u : State}

theorem Loaded.coreOnly (h : Loaded es s u) : CoreOnly es s u := by
  unfold Loaded at h
  rw [h]
  rfl

theorem CoreOnly.trans (h : CoreOnly es s t) (h' : CoreOnly es' t u) : CoreOnly es' s u := by
  unfold CoreOnly at *
  rw [h'] at *
  rw [h]

theorem CoreOnly.launch (h : CoreOnly es s u) : u.launch = s.launch := by rw [h]

theorem CoreOnly.setSp (h : CoreOnly es s u) (v : Word) : CoreOnly es s (u.setSp v) := by
  unfold CoreOnly at *
  rw [h]
  rfl

theorem CoreOnly.setRampz (h : CoreOnly es s u) (v : Byte) : CoreOnly es s (u.setRampz v) := by
  unfold CoreOnly at *
  rw [h]
  rfl

theorem CoreOnly.setReg (h : CoreOnly es s u) (d : Reg) (v : Byte) : CoreOnly es s (u.setReg d v) := by
  unfold CoreOnly at *
  rw [h]
  rfl

theorem CoreOnly.setPtr (h : CoreOnly es s u) (p : Ptr) (v : Word) : CoreOnly es s (u.setPtr p v) :=
  (h.setReg _ _).setReg _ _

/-- What such an instruction leaves unchanged, after its end. -/
theorem CoreOnly.retire_frame (h : CoreOnly es s u) (n : Nat) :
    (retire n u).sreg = s.sreg ∧ SameEeprom s (retire n u) ∧ SameSpm s (retire n u) ∧ SameControl s (retire n u) ∧
      (retire n u).ioEvents = es ∧ Ended n s (retire n u) := by
  unfold CoreOnly at h
  rw [h]
  exact ⟨rfl, ⟨rfl, rfl, rfl, rfl, rfl⟩, ⟨rfl, rfl, rfl⟩, ⟨rfl, rfl, rfl, rfl, rfl, rfl, rfl, rfl⟩, rfl,
    retire_advanced n _, rfl, rfl⟩

theorem SameMem.of_mem_eq (h : u.mem = s.mem) : SameMem s u := fun _ _ => by rw [h]

theorem Loaded.mem (h : Loaded es s u) : u.mem = s.mem := by rw [h]

theorem Loaded.setPtr (h : Loaded es s u) (p : Ptr) (v : Word) : Loaded es s (u.setPtr p v) :=
  (h.setReg _ _).setReg _ _

theorem SameRegsBut.setPtr {ds : List Reg} (h : SameRegsBut ds s u) {p : Ptr} (hlo : p.lo ∈ ds) (hhi : p.hi ∈ ds)
    (v : Word) : SameRegsBut ds s (u.setPtr p v) :=
  (h.setReg hlo _).setReg hhi _

/-! ## Reads of program memory (R54, R150, R271) -/

/-- The read answers with a byte, leaves the registers, and where program memory is what it reads the byte is the one
at `ba` (R54). -/
def GivesProgByte (readable : Prop) (ba : Nat) (s : State) (r : Res (Byte × State)) : Prop :=
  ∃ v u, r = .next (v, u) ∧ Loaded s.ioEvents s u ∧ u.regs = s.regs ∧ (readable → v = s.progByte ba)

/-- A byte address is the low or the high byte of its word (R54). -/
theorem State.progByte_eq (s : State) (ba : Nat) : s.progByte ba = s.mem.byte .flash ba := by
  rw [State.progByte, s.mem.lowByte_progWord, s.mem.highByte_progWord]
  split
  · next heven => rw [show 2 * (ba / 2) = ba by omega]
  · next hodd => rw [show 2 * (ba / 2) + 1 = ba by omega]

/-- A read that R271 forbids gives a free value (log 13, log 14). -/
theorem givesProgByte_draw {readable : Prop} {ba : Nat} (h : ¬ readable) :
    GivesProgByte readable ba s (.next (progDraw s.draws ba, s.tick)) :=
  ⟨_, _, rfl, rfl, rfl, fun hr => absurd hr h⟩

theorem progRead_givesProgByte {ba : Nat} (hin : ba / 2 < s.launch.device.flashWords) :
    GivesProgByte (s.progReadable ba) ba s (progRead s ba) := by
  rw [progRead, if_neg (Nat.not_le.2 hin)]
  split
  · next hbusy => exact givesProgByte_draw fun hr => by simp [hr.2] at hbusy
  · exact ⟨_, _, rfl, rfl, rfl, fun _ => (s.progByte_eq ba).symm⟩

theorem lpmRead_givesProgByte {ba : Nat} (hin : ba / 2 < s.launch.device.flashWords) :
    GivesProgByte (s.progReadable ba ∧ s.readsLockBits = false) ba s (lpmRead s ba) := by
  rw [lpmRead, if_neg (Nat.not_le.2 hin)]
  split
  · next hlock => exact givesProgByte_draw fun hr => by simp [hr.2] at hlock
  · obtain ⟨v, u, hread, hu, hregs, hv⟩ := progRead_givesProgByte hin
    exact ⟨v, u, hread, hu, hregs, fun hr => hv hr.1⟩

theorem progRead_beyond {ba : Nat} (h : s.launch.device.flashWords ≤ ba / 2) :
    progRead s ba = .refused (.unimplementedProgramAddress ba) := by
  rw [progRead, if_pos h]

theorem lpmRead_beyond {ba : Nat} (h : s.launch.device.flashWords ≤ ba / 2) :
    lpmRead s ba = .refused (.unimplementedProgramAddress ba) := by
  rw [lpmRead, if_pos h]

/-! ## LPM and ELPM -/

/-- LPM and LPM Rd,Z are the one load through `lpmRead` at Z (R151, R152). -/
theorem exec_lpm_form {i : Instr} {d : Reg} (h : i = .lpm ∧ d = 0 ∨ i = .lpmZ d) :
    exec i s = finish 1 (andThen (lpmRead s (s.ptr .Z).toNat) fun r => .next (r.2.setReg d r.1)) := by
  rcases h with ⟨rfl, rfl⟩ | rfl <;> rfl

/-- ELPM and ELPM Rd,Z are the one load through `progRead` at RAMPZ : Z (R154, R155). -/
theorem exec_elpm_form {i : Instr} {d : Reg} (h : i = .elpm ∧ d = 0 ∨ i = .elpmZ d) :
    exec i s = finish 1 (andThen (progRead s (s.rampz ++ s.ptr .Z).toNat) fun r => .next (r.2.setReg d r.1)) := by
  rcases h with ⟨rfl, rfl⟩ | rfl <;> rfl

/-- The registers for which R153, R156 and R164 leave the result undefined are the halves of Z. -/
theorem has_Z_iff {d : Reg} : Ptr.has .Z d = true ↔ d = 30 ∨ d = 31 := by
  simp [Ptr.has, Ptr.lo, Ptr.hi]

theorem has_Z_eq_false {d : Reg} (hlo : d ≠ 30) (hhi : d ≠ 31) : Ptr.has .Z d = false :=
  Ptr.has_eq_false_iff.2 ⟨hlo, hhi⟩

/-- A defined LPM Rd,Z+ (R153). -/
theorem exec_lpmZInc {d : Reg} (hlo : d ≠ 30) (hhi : d ≠ 31) :
    exec (.lpmZInc d) s = finish 1 (andThen (lpmRead s (s.ptr .Z).toNat) fun r =>
      .next ((r.2.setPtr .Z (s.ptr .Z + 1)).setReg d r.1)) :=
  congrArg (finish 1) (if_neg (by simp [has_Z_eq_false hlo hhi]))

/-- A defined ELPM Rd,Z+ (R156). -/
theorem exec_elpmZInc {d : Reg} (hlo : d ≠ 30) (hhi : d ≠ 31) :
    exec (.elpmZInc d) s = finish 1 (andThen (progRead s (s.rampz ++ s.ptr .Z).toNat) fun r =>
      .next ((r.2.setRampzZ (s.rampzZ + 1)).setReg d r.1)) :=
  congrArg (finish 1) (if_neg (by simp [has_Z_eq_false hlo hhi]))

theorem exec_lpmZInc_undefined {d : Reg} (h : d = 30 ∨ d = 31) :
    exec (.lpmZInc d) s = .fault .undefinedOperandCombination :=
  congrArg (finish 1) (if_pos (has_Z_iff.2 h))

theorem exec_elpmZInc_undefined {d : Reg} (h : d = 30 ∨ d = 31) :
    exec (.elpmZInc d) s = .fault .undefinedOperandCombination :=
  congrArg (finish 1) (if_pos (has_Z_iff.2 h))

/-- A load of one register through a read that gives a byte, whole (R151, R152, R154, R155). -/
theorem GivesProgByte.load {readable : Prop} {ba : Nat} {r : Res (Byte × State)} (h : GivesProgByte readable ba s r)
    (d : Reg) :
    ∃ t, finish 1 (andThen r fun r => .next (r.2.setReg d r.1)) = .next t ∧
      (readable → t.reg d = s.progByte ba) ∧ SameRegsBut [d] s t ∧ t.sreg = s.sreg ∧ SameMem s t ∧ SameAside s t ∧
      t.ioEvents = s.ioEvents ∧ Ended 1 s t := by
  obtain ⟨v, u, rfl, hu, hregs, hv⟩ := h
  obtain ⟨hreg, hframe⟩ := hu.setReg_retire_frame hregs d v 1
  exact ⟨_, rfl, fun hr => hreg.trans (hv hr), hframe⟩

/-- A pointer written, then a register that is no half of it: how both read, and which registers are kept. -/
theorem setPtr_setReg_regs (hregs : u.regs = s.regs) {p : Ptr} {d : Reg} (hd : p.has d = false) (w : Word) (v : Byte) :
    ((u.setPtr p w).setReg d v).reg d = v ∧ ((u.setPtr p w).setReg d v).ptr p = w ∧
      SameRegsBut [d, p.lo, p.hi] s ((u.setPtr p w).setReg d v) := by
  refine ⟨State.reg_setReg_same _ _ _, ?_, ?_⟩
  · rw [State.ptr_setReg_other _ p d v hd, State.ptr_setPtr_same]
  · exact ((SameRegsBut.of_regs_eq hregs).setPtr (by simp) (by simp) w).setReg (by simp) v

theorem State.rampzZ_toNat (s : State) : s.rampzZ.toNat = s.rampz.toNat * 65536 + (s.ptr .Z).toNat := by
  rw [State.rampzZ, BitVec.toNat_append, ← Nat.shiftLeft_add_eq_or_of_lt (s.ptr .Z).isLt, Nat.shiftLeft_eq]

/-- The low word of `RAMPZ : Z` one more (R156). -/
theorem State.rampzZ_succ_low (s : State) : (s.rampzZ + 1).extractLsb' 0 16 = s.ptr .Z + 1 := by
  apply BitVec.eq_of_toNat_eq
  rw [BitVec.extractLsb'_toNat, BitVec.toNat_add, BitVec.toNat_add, s.rampzZ_toNat, Nat.shiftRight_zero]
  change (_ + 1) % 2 ^ 24 % 2 ^ 16 = (_ + 1) % 2 ^ 16
  omega

/-- The high byte of `RAMPZ : Z` one more: the carry out of Z goes into RAMPZ (R156). -/
theorem State.rampzZ_succ_high (s : State) :
    (s.rampzZ + 1).extractLsb' 16 8 = if s.ptr .Z = 0xFFFF then s.rampz + 1 else s.rampz := by
  have hlow := (s.ptr .Z).isLt
  have hhigh := s.rampz.isLt
  have hsum : ((s.rampzZ + 1).extractLsb' 16 8).toNat =
      (s.rampz.toNat * 65536 + (s.ptr .Z).toNat + 1) / 65536 % 256 := by
    rw [BitVec.extractLsb'_toNat, BitVec.toNat_add, s.rampzZ_toNat, Nat.shiftRight_eq_div_pow]
    change (_ + 1) % 2 ^ 24 / 2 ^ 16 % 2 ^ 8 = _
    omega
  apply BitVec.eq_of_toNat_eq
  rw [hsum]
  split
  · next hcarry =>
    rw [hcarry, BitVec.toNat_add]
    change (_ + 65535 + 1) / 65536 % 256 = (_ + 1) % 2 ^ 8
    omega
  · next hcarry =>
    have hne : (s.ptr .Z).toNat ≠ 65535 := fun e => hcarry (BitVec.eq_of_toNat_eq e)
    omega

/-- Of a value masked by its low `k` bits the others read 0, as in SP (R31) and RAMPZ (R33). -/
theorem getLsbD_and_lowMask {w k n : Nat} (v : BitVec w) (hn : n < w) :
    (v &&& BitVec.ofNat w (2 ^ k - 1)).getLsbD n = (decide (n < k) && v.getLsbD n) := by
  rw [BitVec.getLsbD_and, BitVec.getLsbD_ofNat, Nat.testBit_two_pow_sub_one]
  simp [hn, Bool.and_comm]

end

end Sys2Proof.Machine
end

section
/-! The obligations about program memory read as data. -/

namespace Sys2Proof.Proofs

open Machine

/-- Settles O27: the three forms are loads through the one read of program memory at Z, which answers below
FLASH_WORDS. -/
theorem lpmReads : Obligations.LpmReads := by
  unfold Obligations.LpmReads
  refine ⟨fun i d s hform hin => ?_, fun d s hlo hhi hin => ?_, fun d s h => exec_lpmZInc_undefined h,
    fun i d s hform hout => ?_⟩
  · obtain ⟨t, hexec, hreg, hframe⟩ := (lpmRead_givesProgByte hin).load d
    exact ⟨t, (exec_lpm_form hform).trans hexec, fun hr hl => hreg ⟨hr, hl⟩, hframe⟩
  · obtain ⟨v, u, hread, hu, hregs, hv⟩ := lpmRead_givesProgByte hin
    obtain ⟨hreg, hptr, hsame⟩ := setPtr_setReg_regs hregs (has_Z_eq_false hlo hhi) (s.ptr .Z + 1) v
    rw [exec_lpmZInc hlo hhi, hread, andThen_next, finish_next]
    exact ⟨_, rfl, fun hr hl => hreg.trans (hv ⟨hr, hl⟩), hptr, hsame, ((hu.setPtr _ _).setReg _ _).retire_frame 1⟩
  · rcases hform with rfl | rfl | ⟨rfl, hlo, hhi⟩
    · rw [exec_lpm_form (.inl ⟨rfl, rfl⟩), lpmRead_beyond hout, andThen_refused, finish_refused]
    · rw [exec_lpm_form (.inr rfl), lpmRead_beyond hout, andThen_refused, finish_refused]
    · rw [exec_lpmZInc hlo hhi, lpmRead_beyond hout, andThen_refused, finish_refused]

/-- Settles O28: as LPM, at RAMPZ : Z; the sum of R156 is Z one more, and its carry goes into RAMPZ. -/
theorem elpmReads : Obligations.ElpmReads := by
  unfold Obligations.ElpmReads
  refine ⟨fun i d s hform hin => ?_, fun d s hlo hhi hin => ?_, fun d s h => exec_elpmZInc_undefined h,
    fun i d s hform hout => ?_⟩
  · obtain ⟨t, hexec, hload⟩ := (progRead_givesProgByte hin).load d
    exact ⟨t, (exec_elpm_form hform).trans hexec, hload⟩
  · obtain ⟨v, u, hread, hu, hregs, hv⟩ := progRead_givesProgByte hin
    have hraised := hu.coreOnly.setRampz ((s.rampzZ + 1).extractLsb' 16 8)
    have hframe := (hraised.setPtr .Z ((s.rampzZ + 1).extractLsb' 0 16)).setReg d v
    have hregs' : (u.setRampz ((s.rampzZ + 1).extractLsb' 16 8)).regs = s.regs := hregs
    obtain ⟨hreg, hptr, hsame⟩ :=
      setPtr_setReg_regs hregs' (has_Z_eq_false hlo hhi) ((s.rampzZ + 1).extractLsb' 0 16) v
    obtain ⟨hsreg, hrest⟩ := hframe.retire_frame 1
    rw [exec_elpmZInc hlo hhi, hread, andThen_next, finish_next]
    refine ⟨_, rfl, fun hr => hreg.trans (hv hr), hptr.trans s.rampzZ_succ_low, fun n hn => ?_, ?_, hsame, hsreg,
      SameMem.of_mem_eq hu.mem, hrest⟩
    · change (u.setRampz ((s.rampzZ + 1).extractLsb' 16 8)).rampz.getLsbD n = _
      rw [State.setRampz_rampz, hu.coreOnly.launch, getLsbD_and_lowMask _ hn, s.rampzZ_succ_high]
    · change u.sp = s.sp
      rw [hu]
  · rcases hform with rfl | rfl | ⟨rfl, hlo, hhi⟩
    · rw [exec_elpm_form (.inl ⟨rfl, rfl⟩), progRead_beyond hout, andThen_refused, finish_refused]
    · rw [exec_elpm_form (.inr rfl), progRead_beyond hout, andThen_refused, finish_refused]
    · rw [exec_elpmZInc hlo hhi, progRead_beyond hout, andThen_refused, finish_refused]

end Sys2Proof.Proofs
end

section
/-! SUPPORT. The SPM device (42_data_transfer_progmem_io_stack.md R158, R159): what each operation of SPM is, what it
leaves unchanged, and what the page operations write. -/

namespace Sys2Proof.Machine

open Config

section
variable {s t u : State}

/-! ## The frame of SPM -/

/-- Only the memories, SPMCR, its window, the SPM operation in progress and the lock bits may differ. -/
def SpmOnly (s u : State) : Prop :=
  u = { s with
    mem := u.mem, spmcr := u.spmcr, spmWindow := u.spmWindow, spmJob := u.spmJob, lockBits := u.lockBits }

/-- What SPM leaves unchanged on every path, after its end. -/
theorem SpmOnly.retire_frame (h : SpmOnly s u) :
    SameRegsBut [] s (retire 1 u) ∧ (retire 1 u).sreg = s.sreg ∧ SameStack s (retire 1 u) ∧
      SameEeprom s (retire 1 u) ∧ SameControl s (retire 1 u) ∧ (retire 1 u).ioEvents = s.ioEvents ∧
      Advanced 1 s (retire 1 u) ∧ (retire 1 u).eeWindow = s.eeWindow.age := by
  unfold SpmOnly at h
  rw [h]
  exact ⟨fun _ _ => rfl, rfl, ⟨rfl, rfl⟩, ⟨rfl, rfl, rfl, rfl, rfl⟩, ⟨rfl, rfl, rfl, rfl, rfl, rfl, rfl, rfl⟩, rfl,
    retire_advanced 1 _, rfl⟩

theorem SpmOnly.regs (h : SpmOnly s u) : u.regs = s.regs := by rw [h]

theorem SpmOnly.launch (h : SpmOnly s u) : u.launch = s.launch := by rw [h]

theorem SpmOnly.closeSpm (h : SpmOnly s u) : SpmOnly s (closeSpm u) := by
  unfold SpmOnly at *
  rw [h]
  rfl

theorem SpmOnly.finishJob (j : SpmJob) : SpmOnly s (finishJob j s) := by
  cases j <;> rfl

/-- The bits that closing keeps: SPMIE and RWWSB. -/
theorem closeSpm_spmcr_bits (s : State) :
    (closeSpm s).spmcr.extractLsb' 0 5 = 0 ∧ (closeSpm s).spmcr.getLsbD 0 = false ∧
      (closeSpm s).spmcr.getLsbD 6 = s.spmcr.getLsbD 6 ∧ (closeSpm s).spmcr.getLsbD 7 = s.spmcr.getLsbD 7 := by
  refine ⟨?_, ?_, ?_, ?_⟩
  · change (s.spmcr &&& 0xC0#8).extractLsb' 0 5 = 0
    generalize s.spmcr = v
    revert v
    decide
  all_goals simp [closeSpm]

/-- SPM ends as R158 says wherever its operation keeps SPMIE, starts no job, and then closes SPMCR. -/
theorem SpmOnly.ends (h : SpmOnly s u) (hie : u.spmcr.getLsbD 7 = s.spmcr.getLsbD 7) (hjob : u.spmJob = none) :
    SpmEnds s (retire 1 (Machine.closeSpm u)) := by
  obtain ⟨hclear, _, _, hkeep⟩ := closeSpm_spmcr_bits u
  obtain ⟨hregs, hsreg, hstack, heeprom, hcontrol, hevents, hadvanced, hwindow⟩ := h.closeSpm.retire_frame
  exact ⟨hclear, hkeep.trans hie, rfl, hjob, hregs, hsreg, hstack, heeprom, hcontrol, hevents, hadvanced, hwindow⟩

/-! ## What SPM does (R158) -/

theorem exec_spm (s : State) : exec .spm s = finish 1 (spmOperation s) := rfl

theorem exec_spmZInc (s : State) :
    exec .spmZInc s = finish 1 (andThen (spmOperation s) fun t => .next (t.setPtr .Z (t.ptr .Z + 2))) := rfl

/-- Where SPM is ready it acts. -/
theorem exec_spm_of_ready {op : BitVec 5} (h : SpmReady op s) : exec .spm s = .next (retire 1 (spmAct s)) := by
  obtain ⟨hmodel, hboot, hjob, hwindow, _⟩ := h
  have hidle : ¬(s.pc.toNat < s.launch.device.bootStart ∨ s.spmJob.isSome = true) := by
    simp [hjob, Nat.not_lt.2 hboot]
  have hact : spmOperation s = .next (spmAct s) := by simp only [spmOperation, hmodel, if_neg hidle, hwindow]
  rw [exec_spm, hact, finish_next]

theorem SpmReady.job {op : BitVec 5} (h : SpmReady op s) : s.spmJob = none := by
  obtain ⟨_, _, hjob, _, _⟩ := h
  exact hjob

theorem SpmReady.op {op : BitVec 5} (h : SpmReady op s) : s.spmcr.extractLsb' 0 5 = op := by
  obtain ⟨_, _, _, _, hop⟩ := h
  exact hop

theorem spmAct_fill (h : SpmReady 0b00001 s) : spmAct s = closeSpm (fillBuffer s) := by
  rw [spmAct, h.op]
  rfl

theorem spmAct_erase (h : SpmReady 0b00011 s) : spmAct s = startJob (.erase s.spmPage) s := by
  rw [spmAct, h.op]
  rfl

theorem spmAct_write (h : SpmReady 0b00101 s) : spmAct s = startJob (.write s.spmPage) s := by
  rw [spmAct, h.op]
  rfl

/-- An erase or a page write is the start of its job. -/
theorem exec_spm_job {j : SpmJob}
    (h : SpmReady 0b00011 s ∧ j = .erase s.spmPage ∨ SpmReady 0b00101 s ∧ j = .write s.spmPage) :
    exec .spm s = .next (retire 1 (startJob j s)) ∧ j.base = s.spmPage := by
  rcases h with ⟨hready, rfl⟩ | ⟨hready, rfl⟩
  · exact ⟨by rw [exec_spm_of_ready hready, spmAct_erase hready], rfl⟩
  · exact ⟨by rw [exec_spm_of_ready hready, spmAct_write hready], rfl⟩

theorem spmAct_lock (h : SpmReady 0b01001 s) :
    spmAct s = closeSpm { s with lockBits := s.lockBits &&& (s.reg 0 ||| 0xC3#8) } := by
  rw [spmAct, h.op]
  rfl

theorem spmAct_reenable (h : SpmReady 0b10001 s) :
    spmAct s = closeSpm { s with spmcr := s.spmcr &&& 0xBF#8, mem := s.mem.setCells .pageBuffer [] } := by
  rw [spmAct, h.op]
  rfl

/-- Without the SPMCR sequence, outside the boot-loader section or while an operation runs SPM does nothing. -/
theorem spmOperation_idle (hmodel : s.launch.spmModel = .device)
    (h : s.spmWindow = .closed ∨ s.pc.toNat < s.launch.device.bootStart ∨ s.spmJob.isSome = true) :
    spmOperation s = .next s := by
  rcases h with hwindow | hbusy
  · simp only [spmOperation, hmodel, hwindow, ite_self]
  · simp only [spmOperation, hmodel, if_pos hbusy]

/-- With the device SPM's operation answers in every state. -/
theorem spmOperation_answers (hmodel : s.launch.spmModel = .device) : ∃ u, spmOperation s = .next u := by
  simp only [spmOperation, hmodel]
  split
  · exact ⟨_, rfl⟩
  · split <;> exact ⟨_, rfl⟩

theorem spmOperation_refused (h : s.launch.spmModel = .refuse) : spmOperation s = .refused .spmUnmodelled := by
  simp only [spmOperation, h]

theorem spmOperation_spmOnly (h : spmOperation s = .next u) : SpmOnly s u := spmOperation_next h

theorem State.ptr_congr (h : u.regs = s.regs) (p : Ptr) : u.ptr p = s.ptr p := by
  simp only [State.ptr, State.reg_congr h]

/-- An effect followed by the write of a pointer, as in SPM Z+, next to that effect alone (R159). -/
theorem retire_setPtr_frame (p : Ptr) (v : Word) :
    SameRegsBut [p.lo, p.hi] (retire 1 u) (retire 1 (u.setPtr p v)) ∧
      (retire 1 (u.setPtr p v)).sreg = (retire 1 u).sreg ∧ SameMem (retire 1 u) (retire 1 (u.setPtr p v)) ∧
      SameAside (retire 1 u) (retire 1 (u.setPtr p v)) ∧
      (retire 1 (u.setPtr p v)).ioEvents = (retire 1 u).ioEvents ∧
      (retire 1 (u.setPtr p v)).pc = (retire 1 u).pc ∧
      (retire 1 (u.setPtr p v)).spmWindow = (retire 1 u).spmWindow ∧
      (retire 1 (u.setPtr p v)).eeWindow = (retire 1 u).eeWindow :=
  ⟨(SameRegsBut.of_regs_eq (s := retire 1 u) (u := u) rfl).setPtr (by simp) (by simp) v, rfl, fun _ _ => rfl,
    ⟨⟨rfl, rfl⟩, ⟨rfl, rfl, rfl, rfl, rfl⟩, ⟨rfl, rfl, rfl⟩, rfl, rfl, rfl, rfl, rfl, rfl, rfl, rfl⟩, rfl, rfl, rfl,
    rfl⟩

/-- BLBSET clears among bits 5..2 those that are 0 in R0 (R158; log 14). -/
theorem getLsbD_clearLockBits (l r : Byte) (n : Nat) (hn : n < 8) :
    (l &&& (r ||| 0xC3#8)).getLsbD n = (l.getLsbD n && (decide (n < 2 ∨ 5 < n) || r.getLsbD n)) := by
  have hmask : ∀ n, n < 8 → (0xC3#8).getLsbD n = decide (n < 2 ∨ 5 < n) := by decide
  rw [BitVec.getLsbD_and, BitVec.getLsbD_or, hmask n hn, Bool.or_comm]

/-- With RWWSB = 0 no section is busy (R158). -/
theorem State.sectionBusy_of_not_busy (h : s.spmcr.getLsbD 6 = false) (wa : Nat) : s.sectionBusy wa = false := by
  rw [State.sectionBusy, h, Bool.and_false, Bool.false_and]

/-! ## The page buffer and its index (R158) -/

theorem fillBuffer_mem (s : State) :
    (fillBuffer s).mem =
      (s.mem.write .pageBuffer (2 * s.spmIndex) (s.reg 0)).write .pageBuffer (2 * s.spmIndex + 1) (s.reg 1) := rfl

theorem fillBuffer_reads (s : State) :
    (fillBuffer s).mem.read .pageBuffer (2 * s.spmIndex) = some (s.reg 0) ∧
      (fillBuffer s).mem.read .pageBuffer (2 * s.spmIndex + 1) = some (s.reg 1) ∧
      SameMemBut .pageBuffer (fun a => a = 2 * s.spmIndex ∨ a = 2 * s.spmIndex + 1) s (fillBuffer s) := by
  refine ⟨?_, ?_, fun sp a h => ?_⟩
  · rw [fillBuffer_mem, Memory.read_write_other _ _ (by omega), Memory.read_write_same]
  · rw [fillBuffer_mem, Memory.read_write_same]
  · have hlo : ¬(sp = .pageBuffer ∧ 2 * s.spmIndex = a) := fun ⟨hsp, ha⟩ => h ⟨hsp, .inl ha.symm⟩
    have hhi : ¬(sp = .pageBuffer ∧ 2 * s.spmIndex + 1 = a) := fun ⟨hsp, ha⟩ => h ⟨hsp, .inr ha.symm⟩
    rw [fillBuffer_mem, Memory.read_write_other _ _ hhi, Memory.read_write_other _ _ hlo]

/-- On the ATmega32 the word index is Z[6:1] and the page Z[14:7] (R158). -/
theorem spmIndex_spmPage_atmega32 (h : s.launch.device = Device.atmega32) :
    s.spmIndex = ((s.ptr .Z).extractLsb' 1 6).toNat ∧ s.spmPage = 128 * ((s.ptr .Z).extractLsb' 7 8).toNat := by
  have haddr : s.spmAddr = (s.ptr .Z).toNat := by
    rw [State.spmAddr, h]
    rfl
  have hword : s.spmWord = (s.ptr .Z).toNat / 2 % 16384 := by
    rw [State.spmWord, haddr, h]
    rfl
  constructor
  · rw [State.spmIndex, hword, h, BitVec.extractLsb'_toNat, Nat.shiftRight_eq_div_pow]
    change _ % 64 = _ / 2 % 64
    omega
  · rw [State.spmPage, hword, h, BitVec.extractLsb'_toNat, Nat.shiftRight_eq_div_pow]
    change _ / 64 * 64 * 2 = 128 * (_ / 128 % 256)
    omega

/-! ## The page operations (R158) -/

/-- After an erase the page reads 0xFF, and every other byte of every memory reads as before. -/
theorem finishJob_erase_reads (base : Nat) (s : State) :
    (∀ a, base ≤ a → a < base + pageBytes s.launch.device →
        (finishJob (.erase base) s).mem.read .flash a = some 0xFF) ∧
      SameMemBut .flash (fun a => base ≤ a ∧ a < base + pageBytes s.launch.device) s (finishJob (.erase base) s) := by
  constructor
  · intro a hlo hhi
    exact (Memory.read_writeRun _ _ _ _ _ _ _).trans (if_pos ⟨rfl, hlo, hhi⟩)
  · intro sp a h
    exact (Memory.read_writeRun _ _ _ _ _ _ _).trans (if_neg h)

/-- A byte of the page buffer always has a value. -/
theorem Memory.read_pageBuffer (m : Memory) (n : Nat) : m.read .pageBuffer n = some (m.byte .pageBuffer n) := by
  unfold Memory.byte Memory.read
  split <;> rfl

/-- Replacing the cells of one memory leaves the others. -/
theorem Memory.read_setCells_other (m : Memory) {sp sp' : Space} (cs : List Host.Cell) (h : sp' ≠ sp) (a : Nat) :
    (m.setCells sp cs).read sp' a = m.read sp' a := by
  rw [Memory.read, Memory.cells_setCells, if_neg h]
  rfl

/-- After a page write the page reads as the page buffer did, the buffer reads erased, and every other byte of every
memory reads as before. -/
theorem finishJob_write_reads (base : Nat) (s : State) :
    (∀ n, n < pageBytes s.launch.device →
        (finishJob (.write base) s).mem.read .flash (base + n) = s.mem.read .pageBuffer n) ∧
      (∀ n, (finishJob (.write base) s).mem.read .pageBuffer n = some 0xFF) ∧
      ∀ sp a, sp ≠ .pageBuffer → ¬(sp = .flash ∧ base ≤ a ∧ a < base + pageBytes s.launch.device) →
        (finishJob (.write base) s).mem.read sp a = s.mem.read sp a := by
  have hother : ∀ sp a, sp ≠ .pageBuffer → (finishJob (.write base) s).mem.read sp a =
      (s.mem.writeRun .flash base (fun i => s.mem.byte .pageBuffer i) (pageBytes s.launch.device)).read sp a :=
    fun sp a hsp => Memory.read_setCells_other _ [] hsp a
  refine ⟨fun n hn => ?_, fun n => rfl, fun sp a hsp h => ?_⟩
  · have hin : base ≤ base + n ∧ base + n < base + pageBytes s.launch.device := by omega
    rw [hother _ _ (by decide), Memory.read_writeRun, if_pos ⟨rfl, hin⟩, Nat.add_sub_cancel_left, s.mem.read_pageBuffer]
  · rw [hother _ _ hsp, Memory.read_writeRun, if_neg h]

/-- What either job makes of the page, and that it leaves the rest of program memory. -/
theorem finishJob_reads (j : SpmJob) (s : State) :
    (∀ n, n < pageBytes s.launch.device → (finishJob j s).mem.read .flash (j.base + n) =
        if j = .erase j.base then some 0xFF else s.mem.read .pageBuffer n) ∧
      ∀ a, ¬(j.base ≤ a ∧ a < j.base + pageBytes s.launch.device) →
        (finishJob j s).mem.read .flash a = s.mem.read .flash a := by
  cases j with
  | erase base =>
    obtain ⟨hpage, hother⟩ := finishJob_erase_reads base s
    exact ⟨fun n hn => (hpage (base + n) (by omega) (by omega)).trans (if_pos rfl).symm,
      fun a ha => hother .flash a fun h => ha h.2⟩
  | write base =>
    obtain ⟨hpage, _, hother⟩ := finishJob_write_reads base s
    exact ⟨fun n hn => (hpage n hn).trans (if_neg nofun).symm,
      fun a ha => hother .flash a (by decide) fun h => ha h.2⟩

/-- In the no-read-while-write section the core is halted until the job is done (R158). -/
theorem startJob_halted (j : SpmJob) (h : s.launch.device.nrwwStart ≤ s.spmPage / 2) :
    startJob j s = closeSpm (finishJob j s) := by
  rw [startJob, if_pos h]

/-- In the read-while-write section the job starts beside the core, and RWWSB is set (R158). -/
theorem startJob_beside (j : SpmJob) (h : s.spmPage / 2 < s.launch.device.nrwwStart) :
    (startJob j s).spmJob = some j ∧ (startJob j s).spmcr.getLsbD 6 = true ∧ (startJob j s).mem = s.mem ∧
      (startJob j s).lockBits = s.lockBits ∧ SpmOnly s (startJob j s) := by
  rw [startJob, if_neg (Nat.not_le.2 h)]
  exact ⟨rfl, by simp, rfl, rfl, rfl⟩

/-- The write unit's turn ends the job in progress and clears SPMEN (R158). -/
theorem deviceEvent_spmDone {j : SpmJob} (h : s.spmJob = some j) :
    (deviceEvent .spmDone s).spmJob = none ∧ (deviceEvent .spmDone s).spmcr.getLsbD 0 = false ∧
      (deviceEvent .spmDone s).mem = (finishJob j s).mem := by
  have hdone : deviceEvent .spmDone s = closeSpm { finishJob j s with spmJob := none } := by
    change spmFinish s = _
    simp only [spmFinish, h]
  obtain ⟨_, hclear, _, _⟩ := closeSpm_spmcr_bits { finishJob j s with spmJob := none }
  rw [hdone]
  exact ⟨rfl, hclear, rfl⟩

end

end Sys2Proof.Machine
end

section
/-! The obligations about SPM. -/

namespace Sys2Proof.Proofs

open Machine

/-- Settles O29: the operation is the two writes of the page buffer, and then SPMCR closes. -/
theorem spmFillsBuffer : Obligations.SpmFillsBuffer := by
  unfold Obligations.SpmFillsBuffer
  refine ⟨fun s hready => ?_, fun s hdevice => spmIndex_spmPage_atmega32 hdevice⟩
  obtain ⟨hlo, hhi, hother⟩ := fillBuffer_reads s
  obtain ⟨_, _, hbusy, _⟩ := closeSpm_spmcr_bits (fillBuffer s)
  have hframe : SpmOnly s (fillBuffer s) := rfl
  rw [exec_spm_of_ready hready, spmAct_fill hready]
  exact ⟨_, rfl, hlo, hhi, hother, hframe.ends rfl hready.job, rfl, hbusy⟩

/-- Settles O30: in this section the job is done before SPM ends. -/
theorem spmErasesAndWritesPage : Obligations.SpmErasesAndWritesPage := by
  unfold Obligations.SpmErasesAndWritesPage
  refine ⟨fun s hready hsection => ?_, fun s hready hsection => ?_⟩
  · obtain ⟨hpage, hother⟩ := finishJob_erase_reads s.spmPage s
    rw [exec_spm_of_ready hready, spmAct_erase hready, startJob_halted _ hsection]
    exact ⟨_, rfl, hpage, hother, (SpmOnly.finishJob _).ends rfl hready.job, rfl⟩
  · obtain ⟨hpage, hbuffer, hother⟩ := finishJob_write_reads s.spmPage s
    rw [exec_spm_of_ready hready, spmAct_write hready, startJob_halted _ hsection]
    exact ⟨_, rfl, hpage, hbuffer, hother, (SpmOnly.finishJob _).ends rfl hready.job, rfl⟩

/-- Settles O31: SPM only notes the job; the write unit's turn does what the halted core waits for. -/
theorem spmRunsBesideCore : Obligations.SpmRunsBesideCore := by
  unfold Obligations.SpmRunsBesideCore
  intro s j hcase hsection
  obtain ⟨hexec, hbase⟩ := exec_spm_job hcase
  obtain ⟨hjob, hbusy, hmem, hlock, hframe⟩ := startJob_beside j hsection
  obtain ⟨hregs, hsreg, hstack, heeprom, hcontrol, hevents, hadvanced, _⟩ := hframe.retire_frame
  obtain ⟨hidle, hclear, hdone⟩ := deviceEvent_spmDone (s := retire 1 (startJob j s)) hjob
  obtain ⟨hpage, hother⟩ := finishJob_reads j (retire 1 (startJob j s))
  rw [retire_launch, SpmOnly.launch hframe, retire_mem, hmem, hbase, ← hdone] at hpage hother
  exact ⟨_, hexec, hjob, hbusy, SameMem.of_mem_eq hmem, hregs, hsreg, hstack, heeprom, hcontrol, hlock, hevents,
    hadvanced, hidle, hclear, hpage, hother⟩

/-- Settles O32: both operations change no memory but the page buffer, and then SPMCR closes. -/
theorem spmLockBitsAndReenable : Obligations.SpmLockBitsAndReenable := by
  unfold Obligations.SpmLockBitsAndReenable
  refine ⟨fun s hready => ?_, fun s hready => ?_⟩
  · have hframe : SpmOnly s { s with lockBits := s.lockBits &&& (s.reg 0 ||| 0xC3#8) } := rfl
    rw [exec_spm_of_ready hready, spmAct_lock hready]
    exact ⟨_, rfl, getLsbD_clearLockBits _ _, fun _ _ => rfl, hframe.ends rfl hready.job⟩
  · have hframe : SpmOnly s { s with spmcr := s.spmcr &&& 0xBF#8, mem := s.mem.setCells .pageBuffer [] } := rfl
    have hbusy : ((s.spmcr &&& 0xBF#8) &&& 0xC0#8).getLsbD 6 = false := by simp
    rw [exec_spm_of_ready hready, spmAct_reenable hready]
    exact ⟨_, rfl, hbusy, State.sectionBusy_of_not_busy hbusy, fun sp a hsp => Memory.read_setCells_other _ [] hsp a,
      hframe.ends (by simp) hready.job, rfl⟩

/-- Settles O33: the operation answers on every path, and is nothing on the idle ones; SPM Z+ adds the write of Z. -/
theorem spmCompletes : Obligations.SpmCompletes := by
  unfold Obligations.SpmCompletes
  refine ⟨fun s hmodel hidle => ?_, fun s hmodel => ?_, fun s hmodel => ?_⟩
  · rw [exec_spm, spmOperation_idle hmodel hidle]
    obtain ⟨hsreg, hmem, haside, hevents, hended⟩ := Loaded.refl.retire_frame (s := s) 1
    exact ⟨_, rfl, fun _ _ => rfl, hsreg, hmem, haside, hevents, hended⟩
  · obtain ⟨u, hop⟩ := spmOperation_answers hmodel
    have hptr : u.ptr .Z = s.ptr .Z := State.ptr_congr (spmOperation_spmOnly hop).regs .Z
    rw [exec_spm, exec_spmZInc, hop, andThen_next, hptr]
    exact ⟨_, _, rfl, rfl, State.ptr_setPtr_same u .Z _, retire_setPtr_frame .Z _⟩
  · rw [exec_spm, exec_spmZInc, spmOperation_refused hmodel]
    exact ⟨rfl, rfl⟩

end Sys2Proof.Proofs
end

section
/-! SUPPORT. IN and OUT (42_data_transfer_progmem_io_stack.md R160, R161): what a read and a write of the I/O space give,
register by register. -/

namespace Sys2Proof.Machine

open Config

section
variable {s : State} {a : IoAddr}

/-! ## Reads of the I/O space (R58, R240) -/

theorem ioRead_loaded (s : State) (a : IoAddr) : Loaded (ioRead s a).2.ioEvents s (ioRead s a).2 := by
  unfold Loaded
  rw [ioRead_state]

theorem exec_inp (d : Reg) (a : IoAddr) (s : State) :
    exec (.inp d a) s = .next (retire 1 ((ioRead s a).2.setReg d (ioRead s a).1)) := rfl

/-- The bits of EECR as it reads (R240). -/
theorem eecr_bits (s : State) :
    s.eecr.extractLsb' 4 4 = 0 ∧ s.eecr.getLsbD 3 = s.eerie ∧ s.eecr.getLsbD 2 = s.eemwe ∧
      s.eecr.getLsbD 1 = s.eeWrite.isSome ∧ s.eecr.getLsbD 0 = false := by
  unfold State.eecr
  cases s.eerie <;> cases s.eemwe <;> cases s.eeWrite.isSome <;> decide

theorem eemwe_closed (h : s.eeWindow = .closed) : s.eemwe = false := by
  simp only [State.eemwe, h]

theorem eemwe_open (h : s.eeWindow = .open) : s.eemwe = true := by
  simp only [State.eemwe, h]

/-- A mask that has bits 6 and 7 keeps them. -/
theorem extractLsb'_and_high {v m : Byte} (hm : m.extractLsb' 6 2 = 0b11#2) :
    (v &&& m).extractLsb' 6 2 = v.extractLsb' 6 2 := by
  rw [BitVec.extractLsb'_and, hm]
  exact BitVec.and_allOnes

/-- SPMIE and RWWSB read as they are, whatever the window (R158). -/
theorem spmcrValue_high (s : State) : s.spmcrValue.extractLsb' 6 2 = s.spmcr.extractLsb' 6 2 := by
  unfold State.spmcrValue
  split
  · rfl
  · split
    · exact extractLsb'_and_high (by decide)
    · rfl
    · rfl
    · refine extractLsb'_and_high ?_
      generalize spmcrDraw s.draws = b
      revert b
      decide

/-! ## Writes of the I/O space (R58, R59) -/

/-- OUT with the write of the I/O space known. -/
theorem exec_out_next {r : Reg} {u : State} (h : ioWrite s a (s.reg r) = .next u) :
    exec (.out a r) s = .next (retire 1 u) := by
  rw [exec_out, h, finish_next]

/-- The frame of an instruction that writes SREG alone. -/
theorem retire_withSreg_frame (s : State) (v : Byte) :
    SameRegsBut [] s (retire 1 { s with sreg := v }) ∧ SameMem s (retire 1 { s with sreg := v }) ∧
      SameAside s (retire 1 { s with sreg := v }) ∧ (retire 1 { s with sreg := v }).ioEvents = s.ioEvents ∧
      Ended 1 s (retire 1 { s with sreg := v }) :=
  ⟨fun _ _ => rfl, fun _ _ => rfl,
    ⟨⟨rfl, rfl⟩, ⟨rfl, rfl, rfl, rfl, rfl⟩, ⟨rfl, rfl, rfl⟩, rfl, rfl, rfl, rfl, rfl, rfl, rfl, rfl⟩, rfl,
    retire_advanced 1 _, rfl, rfl⟩

/-- A bit of a word made of two bytes. -/
theorem getLsbD_joinBytes (hi lo : Byte) (n : Nat) :
    (joinBytes hi lo).getLsbD n = if n < 8 then lo.getLsbD n else hi.getLsbD (n - 8) := by
  unfold joinBytes
  rw [BitVec.getLsbD_append]

theorem getLsbD_lowByte (w : Word) {n : Nat} (h : n < 8) : (lowByte w).getLsbD n = w.getLsbD n := by
  simp [lowByte, h]

theorem getLsbD_highByte (w : Word) {n : Nat} (h : 8 ≤ n) (hn : n < 16) :
    (highByte w).getLsbD (n - 8) = w.getLsbD n := by
  have hlt : n - 8 < 8 := by omega
  simp [highByte, hlt, Nat.add_sub_cancel' h]

/-- The bits of SP after a write: those that are not implemented read 0 (R31). -/
theorem getLsbD_setSp (v : Word) {n : Nat} (hn : n < 16) :
    (s.setSp v).sp.getLsbD n = (decide (n < s.launch.device.spBits) && v.getLsbD n) := by
  rw [State.setSp_sp, getLsbD_and_lowMask _ hn]

/-- SPMCR's address is told apart only where the model has the SPM device. -/
theorem ioReg_spmcr_model {l : Launch} (h : ioReg l a = .spmcr) : l.spmModel = .device := by
  cases hmodel : l.spmModel with
  | device => rfl
  | refuse => simp [ioReg, hmodel, ite_eq_iff] at h

/-! ## Writes of SPMCR (R158; log 9, log 10, log 42) -/

theorem spmcrWrite_spmOnly (s : State) (v : Byte) :
    SpmOnly s (spmcrWrite s v) ∧ (spmcrWrite s v).mem = s.mem ∧ (spmcrWrite s v).spmJob = s.spmJob ∧
      (spmcrWrite s v).lockBits = s.lockBits := by
  unfold spmcrWrite
  split
  · exact ⟨rfl, rfl, rfl, rfl⟩
  · split <;> exact ⟨rfl, rfl, rfl, rfl⟩

/-- While an operation runs only SPMIE is written. -/
theorem spmcrWrite_busy {v : Byte} (hbusy : s.spmJob.isSome = true) :
    (spmcrWrite s v).spmWindow = s.spmWindow ∧ ∀ n, n < 8 →
      (spmcrWrite s v).spmcr.getLsbD n = if n = 7 then v.getLsbD 7 else s.spmcr.getLsbD n := by
  rw [spmcrWrite, if_pos hbusy]
  exact ⟨rfl, fun n hn => getLsbD_setBit s.spmcr 7 (v.getLsbD 7) n hn⟩

/-- Of the byte written the bits of `m`, and RWWSB as before. -/
theorem getLsbD_keepRwwsb (v c m : Byte) (hm : m.getLsbD 6 = false) {n : Nat} (hn : n < 8) :
    ((v &&& m) ||| (c &&& 0x40#8)).getLsbD n = if n = 6 then c.getLsbD 6 else m.getLsbD n && v.getLsbD n := by
  have hbit : ∀ n, n < 8 → (0x40#8).getLsbD n = decide (n = 6) := by decide
  rw [BitVec.getLsbD_or, BitVec.getLsbD_and, BitVec.getLsbD_and, hbit n hn]
  split
  · next h => rw [h, hm, Bool.and_false, Bool.false_or, decide_eq_true rfl, Bool.and_true]
  · next h => simp [h, Bool.and_comm]

/-- With SPMEN = 1 the window opens and the bits written with it select the operation. -/
theorem spmcrWrite_open {v : Byte} (hidle : ¬ s.spmJob.isSome = true) (hen : v.getLsbD 0 = true) :
    (spmcrWrite s v).spmWindow = .armed ∧ ∀ n, n < 8 → (spmcrWrite s v).spmcr.getLsbD n =
      if n = 6 then s.spmcr.getLsbD 6 else decide (n ≠ 5) && v.getLsbD n := by
  have hmask : ∀ n, n < 8 → n ≠ 6 → (0x9F#8).getLsbD n = decide (n ≠ 5) := by decide
  rw [spmcrWrite, if_neg hidle, if_pos hen]
  refine ⟨rfl, fun n hn => (getLsbD_keepRwwsb v s.spmcr 0x9F#8 rfl hn).trans ?_⟩
  split
  · rfl
  · next h => rw [hmask n hn h]

/-- With SPMEN = 0 the window closes and the selecting bits read 0. -/
theorem spmcrWrite_close {v : Byte} (hidle : ¬ s.spmJob.isSome = true) (hen : ¬ v.getLsbD 0 = true) :
    (spmcrWrite s v).spmWindow = .closed ∧ ∀ n, n < 8 → (spmcrWrite s v).spmcr.getLsbD n =
      if n = 6 then s.spmcr.getLsbD 6 else decide (n = 7) && v.getLsbD n := by
  have hmask : ∀ n, n < 8 → (0x80#8).getLsbD n = decide (n = 7) := by decide
  rw [spmcrWrite, if_neg hidle, if_neg hen]
  refine ⟨rfl, fun n hn => (getLsbD_keepRwwsb v s.spmcr 0x80#8 rfl hn).trans ?_⟩
  rw [hmask n hn]

/-- The bits that select the operation are those written. -/
theorem spmcrWrite_op {v : Byte} (hidle : ¬ s.spmJob.isSome = true) (hen : v.getLsbD 0 = true) :
    (spmcrWrite s v).spmcr.extractLsb' 0 5 = v.extractLsb' 0 5 := by
  obtain ⟨_, hbits⟩ := spmcrWrite_open hidle hen
  apply BitVec.eq_of_getLsbD_eq
  intro n hn
  have h5 : n ≠ 5 := by omega
  have h6 : n ≠ 6 := by omega
  rw [BitVec.getLsbD_extractLsb', BitVec.getLsbD_extractLsb', Nat.zero_add, hbits n (by omega), if_neg h6]
  simp [h5]

/-- SPM acts next, if it is executed from the boot-loader section (R158). -/
theorem spmcrWrite_ready {v : Byte} (hmodel : s.launch.spmModel = .device) (hidle : ¬ s.spmJob.isSome = true)
    (hen : v.getLsbD 0 = true) (hboot : s.launch.device.bootStart ≤ (retire 1 (spmcrWrite s v)).pc.toNat) :
    SpmReady (v.extractLsb' 0 5) (retire 1 (spmcrWrite s v)) := by
  obtain ⟨hframe, _, hjob, _⟩ := spmcrWrite_spmOnly s v
  obtain ⟨harmed, _⟩ := spmcrWrite_open hidle hen
  have hlaunch : (retire 1 (spmcrWrite s v)).launch = s.launch := by rw [retire_launch, SpmOnly.launch hframe]
  have hnone : s.spmJob = none := by simpa using hidle
  unfold SpmReady
  rw [hlaunch]
  exact ⟨hmodel, hboot, hjob.trans hnone, congrArg Window.age harmed, spmcrWrite_op hidle hen⟩

end

end Sys2Proof.Machine
end

section
/-! The obligations about IN and OUT. -/

namespace Sys2Proof.Proofs

open Machine

/-- Settles O34: IN is the read of the I/O space into one register; the value is then read off register by register. -/
theorem inReads : Obligations.InReads := by
  unfold Obligations.InReads
  intro d a s
  obtain ⟨hreg, hsame, hsreg, hmem, haside, hevents, hended⟩ :=
    (ioRead_loaded s a).setReg_retire_frame (ioRead_regs s a) d (ioRead s a).1 1
  refine ⟨_, exec_inp d a s, hsame, hsreg, hmem, haside, hended, ?_⟩
  rw [hreg, hevents]
  cases hio : ioReg s.launch a with
  | sreg | sph | spl | rampz | eearh | eearl | eedr | mcucr | unmodelled =>
    simp only [ioRead, hio, highByte, lowByte, and_self]
  | eecr =>
    obtain ⟨hhigh, herie, hemwe, hewe, hre⟩ := eecr_bits s
    simp only [ioRead, hio]
    exact ⟨hhigh, herie, fun h => hemwe.trans (eemwe_closed h), fun h => hemwe.trans (eemwe_open h), hewe, hre, rfl⟩
  | spmcr =>
    simp only [ioRead, hio]
    exact ⟨spmcrValue_high s, rfl⟩

/-- Settles O35: OUT is the write of the I/O space; each register has its own write and the frame of its kind. -/
theorem outWrites : Obligations.OutWrites := by
  unfold Obligations.OutWrites
  intro a r s
  cases hio : ioReg s.launch a with
  | eearh | eearl | eedr | eecr => trivial
  | sreg =>
    have hwrite : ioWrite s a (s.reg r) = writeSreg s (s.reg r) := by rw [ioWrite, hio]
    simp only
    split
    · next hset => rw [exec_out, hwrite, writeSreg, if_pos hset, finish_refused]
    · next hset =>
      rw [exec_out, hwrite, writeSreg, if_neg hset, finish_next]
      exact ⟨_, rfl, rfl, retire_withSreg_frame s (s.reg r)⟩
  | sph =>
    have hwrite : ioWrite s a (s.reg r) = .next (s.setSp (joinBytes (s.reg r) (lowByte s.sp))) := by rw [ioWrite, hio]
    obtain ⟨hsreg, hrest⟩ := (Loaded.refl.coreOnly.setSp (s := s) (joinBytes (s.reg r) (lowByte s.sp))).retire_frame 1
    refine ⟨_, exec_out_next hwrite, fun n hn => ?_, rfl, fun _ _ => rfl, hsreg, fun _ _ => rfl, hrest⟩
    rw [retire_sp, getLsbD_setSp _ hn, getLsbD_joinBytes]
    split
    · next hlow => rw [getLsbD_lowByte _ hlow]
    · rfl
  | spl =>
    have hwrite : ioWrite s a (s.reg r) = .next (s.setSp (joinBytes (highByte s.sp) (s.reg r))) := by rw [ioWrite, hio]
    obtain ⟨hsreg, hrest⟩ := (Loaded.refl.coreOnly.setSp (s := s) (joinBytes (highByte s.sp) (s.reg r))).retire_frame 1
    refine ⟨_, exec_out_next hwrite, fun n hn => ?_, rfl, fun _ _ => rfl, hsreg, fun _ _ => rfl, hrest⟩
    rw [retire_sp, getLsbD_setSp _ hn, getLsbD_joinBytes]
    split
    · rfl
    · next hhigh => rw [getLsbD_highByte _ (Nat.not_lt.1 hhigh) hn]
  | rampz =>
    have hwrite : ioWrite s a (s.reg r) = .next (s.setRampz (s.reg r)) := by rw [ioWrite, hio]
    obtain ⟨hsreg, hrest⟩ := (Loaded.refl.coreOnly.setRampz (s := s) (s.reg r)).retire_frame 1
    refine ⟨_, exec_out_next hwrite, fun n hn => ?_, rfl, fun _ _ => rfl, hsreg, fun _ _ => rfl, hrest⟩
    rw [retire_rampz, State.setRampz_rampz, getLsbD_and_lowMask _ hn]
  | mcucr =>
    have hwrite : ioWrite s a (s.reg r) =
        .next { s with mcucr := s.reg r, ioEvents := .write a (s.reg r) :: s.ioEvents } := by rw [ioWrite, hio]
    exact ⟨_, exec_out_next hwrite, rfl, rfl, rfl, rfl, rfl, rfl, rfl, rfl, fun _ _ => rfl, rfl, fun _ _ => rfl,
      ⟨rfl, rfl⟩, ⟨rfl, rfl, rfl, rfl, rfl⟩, ⟨rfl, rfl, rfl⟩, rfl, retire_advanced 1 _, rfl, rfl⟩
  | unmodelled =>
    have hwrite : ioWrite s a (s.reg r) = .next { s with ioEvents := .write a (s.reg r) :: s.ioEvents } := by
      rw [ioWrite, hio]
    have hframe : Loaded (.write a (s.reg r) :: s.ioEvents) s { s with ioEvents := .write a (s.reg r) :: s.ioEvents } :=
      rfl
    obtain ⟨hsreg, hmem, haside, hevents, hended⟩ := hframe.retire_frame 1
    exact ⟨_, exec_out_next hwrite, hevents, fun _ _ => rfl, hsreg, hmem, haside, hended⟩
  | spmcr =>
    have hwrite : ioWrite s a (s.reg r) = .next (spmcrWrite s (s.reg r)) := by rw [ioWrite, hio]
    obtain ⟨hframe, hmem, hjob, hlock⟩ := spmcrWrite_spmOnly s (s.reg r)
    obtain ⟨hregs, hsreg, hstack, heeprom, hcontrol, hevents, hadvanced, hwindow⟩ := hframe.retire_frame
    refine ⟨_, exec_out_next hwrite, ?_, hjob, hlock, hregs, hsreg, SameMem.of_mem_eq hmem, hstack, heeprom, hcontrol,
      hevents, hadvanced, hwindow⟩
    rw [retire_spmWindow, retire_spmcr]
    split
    · next hbusy =>
      obtain ⟨hkept, hbits⟩ := spmcrWrite_busy hbusy
      exact ⟨congrArg Window.age hkept, hbits⟩
    · next hidle =>
      split
      · next hen =>
        obtain ⟨harmed, hbits⟩ := spmcrWrite_open hidle hen
        exact ⟨congrArg Window.age harmed, hbits, spmcrWrite_ready (ioReg_spmcr_model hio) hidle hen⟩
      · next hen =>
        obtain ⟨hclosed, hbits⟩ := spmcrWrite_close hidle hen
        exact ⟨congrArg Window.age hclosed, hbits⟩

end Sys2Proof.Proofs
end

section
/-! SUPPORT. PUSH, POP and XCH (42_data_transfer_progmem_io_stack.md R162 to R164): SP one less and one more, and the
device's turn between the two accesses of XCH. -/

namespace Sys2Proof.Machine

open Config

section
variable {s t u : State}

/-! ## SP (R31) -/

/-- The implemented bits of a word are its value modulo 2^SP_BITS. -/
theorem toNat_and_lowMask {k : Nat} (v : Word) (hk : k ≤ 16) :
    (v &&& BitVec.ofNat 16 (2 ^ k - 1)).toNat = v.toNat % 2 ^ k := by
  have hle : 2 ^ k ≤ 2 ^ 16 := Nat.pow_le_pow_right (by decide) hk
  have hpos : 0 < 2 ^ k := Nat.two_pow_pos k
  rw [BitVec.toNat_and, BitVec.toNat_ofNat, Nat.mod_eq_of_lt (by omega), Nat.and_two_pow_sub_one_eq_mod]

/-- The residue modulo 2^16 of a number has its residue modulo a smaller power of two. -/
theorem mod_word_mod_two_pow (a : Nat) {k : Nat} (hk : k ≤ 16) : a % 2 ^ 16 % 2 ^ k = a % 2 ^ k :=
  Nat.mod_mod_of_dvd a (Nat.pow_dvd_pow 2 hk)

/-- One less modulo 2^16, then modulo a smaller power of two, is one less modulo that power. -/
theorem pred_word_mod_two_pow (a : Nat) {k : Nat} (hk : k ≤ 16) :
    (2 ^ 16 - 1 + a) % 2 ^ 16 % 2 ^ k = (a + 2 ^ k - 1) % 2 ^ k := by
  obtain ⟨c, hc⟩ : 2 ^ k ∣ 2 ^ 16 := Nat.pow_dvd_pow 2 hk
  obtain _ | c := c
  · omega
  · have hpos : 0 < 2 ^ k := Nat.two_pow_pos k
    rw [Nat.mul_succ] at hc
    have hsum : 2 ^ 16 - 1 + a = a + 2 ^ k - 1 + 2 ^ k * c := by omega
    rw [mod_word_mod_two_pow _ hk, hsum, Nat.add_mul_mod_self_left]

/-- SP one less, modulo 2^SP_BITS. -/
theorem setSp_pred_toNat (h : s.Inv) :
    (s.setSp (s.sp - 1)).sp.toNat = (s.sp.toNat + 2 ^ s.launch.device.spBits - 1) % 2 ^ s.launch.device.spBits := by
  obtain ⟨_, hbits, _⟩ := Device.wf_bounds h.device
  rw [State.setSp_sp, toNat_and_lowMask _ hbits, BitVec.toNat_sub]
  exact pred_word_mod_two_pow _ hbits

/-- SP one more, modulo 2^SP_BITS. -/
theorem setSp_succ (h : s.Inv) :
    s.setSp (s.sp + 1) =
      { s with sp := BitVec.ofNat 16 ((s.sp.toNat + 1) % 2 ^ s.launch.device.spBits) } := by
  obtain ⟨_, hbits, _⟩ := Device.wf_bounds h.device
  have hsp : (s.sp + 1) &&& BitVec.ofNat 16 (2 ^ s.launch.device.spBits - 1) =
      BitVec.ofNat 16 ((s.sp.toNat + 1) % 2 ^ s.launch.device.spBits) := by
    apply BitVec.eq_of_toNat_eq
    have hle : 2 ^ s.launch.device.spBits ≤ 2 ^ 16 := Nat.pow_le_pow_right (by decide) hbits
    have hlt : (s.sp.toNat + 1) % 2 ^ s.launch.device.spBits < 2 ^ 16 :=
      Nat.lt_of_lt_of_le (Nat.mod_lt _ (Nat.two_pow_pos _)) hle
    rw [toNat_and_lowMask _ hbits, BitVec.toNat_add, BitVec.toNat_ofNat, Nat.mod_eq_of_lt hlt]
    exact mod_word_mod_two_pow _ hbits
  rw [State.setSp, hsp]

/-- SP one less and then one more is SP (R162, R163). -/
theorem succ_mod_of_pred_mod {a b m : Nat} (ha : a < m) (hb : b = (a + m - 1) % m) : (b + 1) % m = a := by
  subst hb
  rw [Nat.mod_add_mod, Nat.sub_add_cancel (by omega), Nat.add_mod_right, Nat.mod_eq_of_lt ha]

/-! ## PUSH (R162) -/

theorem exec_push (r : Reg) (s : State) :
    exec (.push r) s = finish 1 (andThen (memWrite s s.sp (s.reg r)) fun t => .next (t.setSp (t.sp - 1))) := rfl

/-- A push to SRAM. -/
theorem exec_push_sram (h : s.Inv) {b : Nat} (hplace : dataPlace s.launch.device s.sp = .sram b) (r : Reg) :
    ∃ t, exec (.push r) s = .next t ∧ t.mem.read .sram b = some (s.reg r) ∧ SameMemBut .sram (fun c => c = b) s t ∧
      t.sp.toNat = (s.sp.toNat + 2 ^ s.launch.device.spBits - 1) % 2 ^ s.launch.device.spBits ∧
      t.rampz = s.rampz ∧ SameRegsBut [] s t ∧ t.sreg = s.sreg ∧ SameEeprom s t ∧ SameSpm s t ∧ SameControl s t ∧
      t.ioEvents = s.ioEvents ∧ Ended 1 s t := by
  have hstored : CoreOnly s.ioEvents s { s with mem := s.mem.write .sram b (s.reg r) } := rfl
  obtain ⟨⟨hread, hother⟩, _⟩ := (Loaded.refl (s := s)).write_sram_retire_frame (n := 1) (b := b) (v := s.reg r) rfl
  have hlow := setSp_pred_toNat h
  rw [exec_push, memWrite_sram hplace, andThen_next, finish_next]
  exact ⟨_, rfl, hread, hother, hlow, rfl, fun _ _ => rfl, (hstored.setSp (s.sp - 1)).retire_frame 1⟩

/-- A push to a general register. -/
theorem exec_push_reg (h : s.Inv) {k : Reg} (hplace : dataPlace s.launch.device s.sp = .reg k) (r : Reg) :
    ∃ t, exec (.push r) s = .next t ∧ t.reg k = s.reg r ∧ SameRegsBut [k] s t ∧
      t.sp.toNat = (s.sp.toNat + 2 ^ s.launch.device.spBits - 1) % 2 ^ s.launch.device.spBits ∧
      t.rampz = s.rampz ∧ SameMem s t ∧ t.sreg = s.sreg ∧ SameEeprom s t ∧ SameSpm s t ∧ SameControl s t ∧
      t.ioEvents = s.ioEvents ∧ Ended 1 s t := by
  have hstored : CoreOnly s.ioEvents s (s.setReg k (s.reg r)) := rfl
  have hlow := setSp_pred_toNat h
  rw [exec_push, memWrite_reg hplace, andThen_next, finish_next]
  exact ⟨_, rfl, State.reg_setReg_same s k _, (SameRegsBut.of_regs_eq rfl).setReg List.mem_cons_self _,
    hlow, rfl, fun _ _ => rfl, (hstored.setSp (s.sp - 1)).retire_frame 1⟩

/-! ## POP (R163) -/

/-- POP is a load at SP, once SP is one more. -/
theorem exec_pop (h : s.Inv) (d : Reg) {n : Word}
    (hn : n = BitVec.ofNat 16 ((s.sp.toNat + 1) % 2 ^ s.launch.device.spBits)) :
    exec (.pop d) s = finish 1 (loadAt d n { s with sp := n }) := by
  have hpop : exec (.pop d) s = finish 1 (loadAt d (s.setSp (s.sp + 1)).sp (s.setSp (s.sp + 1))) := rfl
  rw [hpop, setSp_succ h, ← hn]

/-- A pop where the new SP holds a byte. -/
theorem exec_pop_loaded (h : s.Inv) (d : Reg) {n : Word} {v : Byte} {es : List IoEvent}
    (hn : n = BitVec.ofNat 16 ((s.sp.toNat + 1) % 2 ^ s.launch.device.spBits))
    (hbyte : State.dataByte { s with sp := n } n = some v) (hevents : s.eventsAfterRead n = es) :
    ∃ t, exec (.pop d) s = .next t ∧ t.reg d = v ∧ t.sp = n ∧ t.rampz = s.rampz ∧ SameRegsBut [d] s t ∧ SameMem s t ∧
      t.sreg = s.sreg ∧ SameEeprom s t ∧ SameSpm s t ∧ SameControl s t ∧ t.ioEvents = es ∧ Ended 1 s t := by
  subst hevents
  obtain ⟨u, hload, hu, hregs⟩ := loadAt_loaded (d := d) hbyte
  have hraised : CoreOnly s.ioEvents s { s with sp := n } := rfl
  have hframe : CoreOnly (s.eventsAfterRead n) s u := hraised.trans hu.coreOnly
  obtain ⟨hreg, hsame, _, hmem, ⟨⟨hsp, hrampz⟩, _⟩, _⟩ := hu.setReg_retire_frame hregs d v 1
  rw [exec_pop h d hn, hload, finish_next]
  exact ⟨_, rfl, hreg, hsp, hrampz, hsame, hmem, (hframe.setReg d v).retire_frame 1⟩

/-! ## Data reads by what the address reaches (R56) -/

theorem memRead_reg {a : Word} {k : Reg} (hplace : dataPlace s.launch.device a = .reg k) :
    memRead s a = .next (s.reg k, s) := by
  simp only [memRead, hplace]

theorem memRead_io {a : Word} {b : IoAddr} (hplace : dataPlace s.launch.device a = .io b) :
    memRead s a = .next (ioRead s b) := by
  simp only [memRead, hplace]

theorem memRead_sram {a : Word} {b : Nat} {v : Byte} (hplace : dataPlace s.launch.device a = .sram b)
    (hread : s.mem.read .sram b = some v) : memRead s a = .next (v, s) := by
  simp only [memRead, hplace, hread]

theorem State.dataByte_reg {a : Word} {k : Reg} (hplace : dataPlace s.launch.device a = .reg k) :
    s.dataByte a = some (s.reg k) ∧ s.eventsAfterRead a = s.ioEvents := by
  simp only [State.dataByte, State.eventsAfterRead, hplace, and_self]

theorem State.dataByte_io {a : Word} {b : IoAddr} (hplace : dataPlace s.launch.device a = .io b) :
    s.dataByte a = some (ioRead s b).1 := by
  simp only [State.dataByte, hplace]

theorem State.dataByte_sram {a : Word} {b : Nat} (hplace : dataPlace s.launch.device a = .sram b) :
    s.dataByte a = s.mem.read .sram b ∧ s.eventsAfterRead a = s.ioEvents := by
  simp only [State.dataByte, State.eventsAfterRead, hplace, and_self]

/-! ## XCH (R164; log 15, log 35) -/

/-- A defined XCH. -/
theorem exec_xch {d : Reg} (hlo : d ≠ 30) (hhi : d ≠ 31) :
    exec (.xch d) s = finish 1 (exchange d (s.dataPtr .Z) s) :=
  if_neg (by simp [has_Z_eq_false hlo hhi])

theorem exec_xch_undefined {d : Reg} (h : d = 30 ∨ d = 31) :
    exec (.xch d) s = .fault .undefinedOperandCombination :=
  if_pos (has_Z_iff.2 h)

/-- The device acts between the two accesses, if the agenda says so. -/
theorem midTurn_event {e : DeviceEvent} {rest : List Turn} (h : s.agenda = .mid e :: rest) :
    midTurn s = deviceEvent e { s with agenda := rest } := by
  simp only [midTurn, h]

/-- A device's turn leaves the registers, SREG, the recorded accesses and the launch parameters. -/
theorem midTurn_keeps (s : State) :
    (midTurn s).regs = s.regs ∧ (midTurn s).sreg = s.sreg ∧ (midTurn s).ioEvents = s.ioEvents ∧
      (midTurn s).launch = s.launch := by
  unfold midTurn
  split
  · rw [deviceEvent_state]
    exact ⟨rfl, rfl, rfl, rfl⟩
  · exact ⟨rfl, rfl, rfl, rfl⟩

/-- XCH with the byte at Z in SRAM: the byte is read before the device's turn, and written after it. -/
theorem exchange_sram {d : Reg} {a : Word} {b : Nat} {v : Byte} (hplace : dataPlace s.launch.device a = .sram b)
    (hread : s.mem.read .sram b = some v) :
    ∃ t, finish 1 (exchange d a s) = .next t ∧ t.reg d = v ∧ t.mem.read .sram b = some (s.reg d) ∧
      SameMemBut .sram (fun c => c = b) (midTurn s) t ∧ SameRegsBut [d] s t ∧ t.sreg = s.sreg ∧
      SameAside (midTurn s) t ∧ t.ioEvents = s.ioEvents ∧ Ended 1 (midTurn s) t := by
  obtain ⟨hregs, hsreg, hevents, hlaunch⟩ := midTurn_keeps s
  rw [← hlaunch] at hplace
  obtain ⟨⟨hwritten, hother⟩, hsreg', haside, hevents', hended⟩ :=
    ((Loaded.refl (s := midTurn s)).setReg d v).write_sram_retire_frame (n := 1) (b := b) (v := s.reg d) rfl
  rw [exchange, memRead_sram (hlaunch ▸ hplace) hread, andThen_next, memWrite_sram hplace, andThen_next, finish_next]
  exact ⟨_, rfl, State.reg_setReg_same _ d v, hwritten, hother,
    (SameRegsBut.of_regs_eq hregs).setReg List.mem_cons_self v, hsreg'.trans hsreg, haside, hevents'.trans hevents,
    hended⟩

/-- XCH with a general register at Z: the two change places, which may be one. -/
theorem exchange_reg {d k : Reg} {a : Word} (hplace : dataPlace s.launch.device a = .reg k) :
    ∃ t, finish 1 (exchange d a s) = .next t ∧ t.reg d = s.reg k ∧ t.reg k = s.reg d ∧ SameRegsBut [d, k] s t ∧
      SameMem (midTurn s) t ∧ t.sreg = s.sreg ∧ SameAside (midTurn s) t ∧ t.ioEvents = s.ioEvents ∧
      Ended 1 (midTurn s) t := by
  obtain ⟨hregs, hsreg, hevents, hlaunch⟩ := midTurn_keeps s
  rw [← hlaunch] at hplace
  obtain ⟨hsreg', hmem, haside, hevents', hended⟩ :=
    (((Loaded.refl (s := midTurn s)).setReg k (s.reg d)).setReg d (s.reg k)).retire_frame 1
  have hswapped : (((midTurn s).setReg k (s.reg d)).setReg d (s.reg k)).reg k = s.reg d := by
    rw [State.reg_setReg]
    split
    · next hsame => rw [hsame]
    · exact State.reg_setReg_same _ k _
  rw [exchange, memRead_reg (hlaunch ▸ hplace), andThen_next, memWrite_reg hplace, andThen_next, finish_next]
  exact ⟨_, rfl, State.reg_setReg_same _ d _, hswapped,
    ((SameRegsBut.of_regs_eq hregs).setReg (by simp) _).setReg (by simp) _, hmem, hsreg'.trans hsreg, haside,
    hevents'.trans hevents, hended⟩

/-- XCH with an I/O register at Z: it is read before the device's turn and written after it (R61). -/
theorem exchange_io {d : Reg} {a : Word} {b : IoAddr} (hplace : dataPlace s.launch.device a = .io b) :
    exchange d a s = andThen (ioWrite (midTurn (ioRead s b).2) b (s.reg d)) fun t =>
      .next (t.setReg d (ioRead s b).1) := by
  obtain ⟨_, _, _, hlaunch⟩ := midTurn_keeps (ioRead s b).2
  have hplace' : dataPlace (midTurn (ioRead s b).2).launch.device a = .io b := by rwa [hlaunch, ioRead_launch]
  rw [exchange, memRead_io hplace, andThen_next, memWrite_io hplace']

theorem exchange_unwritten {d : Reg} {a : Word} {b : Nat} (hplace : dataPlace s.launch.device a = .sram b)
    (hread : s.mem.read .sram b = none) : exchange d a s = .fault (.readUnwritten b) := by
  rw [exchange, memRead_unwritten hplace hread, andThen_fault]

theorem exchange_nothing {d : Reg} {a : Word} {b : Nat} (hplace : dataPlace s.launch.device a = .nothing b) :
    exchange d a s = .refused (.unimplementedDataAddress b) := by
  rw [exchange, memRead_nothing hplace, andThen_refused]

/-- The read of the I/O space leaves the agenda. -/
theorem ioRead_noMidTurn (h : s.noMidTurn) (b : IoAddr) : (ioRead s b).2.noMidTurn :=
  (ioRead_sramOnly b).noMidTurn h

end

end Sys2Proof.Machine
end

section
/-! The obligations about the stack and XCH. -/

namespace Sys2Proof.Proofs

open Machine

/-- Settles O43: the push is the data write at SP, by its four cases (R57), then SP one less. -/
theorem pushStores : Obligations.PushStores := by
  unfold Obligations.PushStores
  intro r s h
  split
  case h_1 b hplace => exact exec_push_sram h hplace r
  case h_2 k hplace => exact exec_push_reg h hplace r
  case h_3 b hplace => rw [exec_push, memWrite_io hplace]
  case h_4 b hplace => rw [exec_push, memWrite_nothing hplace, andThen_refused, finish_refused]

/-- Settles O44: the pop is the load at SP one more, by the four cases of R56. -/
theorem popLoads : Obligations.PopLoads := by
  unfold Obligations.PopLoads
  intro d s n h hn
  split
  case h_1 b hplace =>
    obtain ⟨hbyte, hevents⟩ := State.dataByte_sram (s := { s with sp := n }) hplace
    refine ⟨fun v hread => exec_pop_loaded h d hn (hbyte.trans hread) hevents, fun hread => ?_⟩
    rw [exec_pop h d hn, loadAt_unwritten (s := { s with sp := n }) hplace hread, finish_fault]
  case h_2 k hplace =>
    obtain ⟨hbyte, hevents⟩ := State.dataByte_reg (s := { s with sp := n }) hplace
    exact exec_pop_loaded h d hn hbyte hevents
  case h_3 b hplace => exact exec_pop_loaded h d hn (State.dataByte_io (s := { s with sp := n }) hplace) rfl
  case h_4 b hplace => rw [exec_pop h d hn, loadAt_nothing (s := { s with sp := n }) hplace, finish_refused]

/-- Settles O45: the push keeps the invariant, and the pop reads the byte it wrote, at the SP it began with. -/
theorem pushThenPop : Obligations.PushThenPop := by
  unfold Obligations.PushThenPop
  intro r d b s h hplace
  obtain ⟨t, hpush, hread, _, hsp, _, hregs, _, _, _, hcontrol, _⟩ := exec_push_sram h hplace r
  have hinv : t.Inv := (exec_ends (.push r) s t hpush).inv h
  obtain ⟨_, _, _, _, _, _, _, hlaunch⟩ := hcontrol
  have hback : s.sp = BitVec.ofNat 16 ((t.sp.toNat + 1) % 2 ^ t.launch.device.spBits) := by
    rw [hlaunch, succ_mod_of_pred_mod h.sp hsp, BitVec.ofNat_toNat, BitVec.setWidth_eq]
  have hplace' : dataPlace t.launch.device s.sp = .sram b := by rwa [hlaunch]
  obtain ⟨hbyte, _⟩ := State.dataByte_sram (s := { t with sp := s.sp }) hplace'
  obtain ⟨u, hpop, hreg, hsp', _, hregs', _⟩ := exec_pop_loaded hinv d hback (hbyte.trans hread) rfl
  exact ⟨t, u, hpush, hpop, hreg, hsp', fun j hj => (hregs' j hj).trans (hregs j List.not_mem_nil)⟩

/-- Settles O46: the device's turn, if there is one, is `midTurn`; the exchange is then read off by the place of Z. -/
theorem exchangeSwaps : Obligations.ExchangeSwaps := by
  unfold Obligations.ExchangeSwaps
  refine ⟨fun d s h => exec_xch_undefined h, fun d s u hlo hhi hturn => ?_⟩
  obtain rfl : midTurn s = u := by
    rcases hturn with ⟨hmid, rfl⟩ | ⟨e, rest, hagenda, rfl⟩
    · exact midTurn_none hmid
    · exact midTurn_event hagenda
  rw [exec_xch hlo hhi]
  split
  case h_1 b hplace =>
    exact ⟨fun v hread => exchange_sram hplace hread, fun hread => by rw [exchange_unwritten hplace hread, finish_fault]⟩
  case h_2 k hplace => exact exchange_reg hplace
  case h_3 b hplace =>
    rw [exchange_io hplace]
    refine ⟨fun hmid => by rw [midTurn_none (ioRead_noMidTurn hmid b)], fun e rest hagenda => ?_⟩
    rw [midTurn_event ((ioRead_agenda s b).trans hagenda)]
  case h_4 b hplace => rw [exchange_nothing hplace, finish_refused]

end Sys2Proof.Proofs
end

section
/-! SUPPORT. The shifts and rotates (43_bit_and_bit_test.md R170 to R176): their results bit by bit and as numbers, the
flags they give, and the rotation through Carry as one of nine bits. -/

namespace Sys2Proof.Machine

open Config

/-! ## Results -/

theorem getLsbD_lslResult (v : Byte) {n : Nat} (hn : n < 8) :
    (lslResult v).getLsbD n = (decide (0 < n) && v.getLsbD (n - 1)) := by
  rw [lslResult, BitVec.getLsbD_shiftLeft, decide_eq_true hn]
  cases n <;> simp

theorem getLsbD_lsrResult (v : Byte) (n : Nat) : (lsrResult v).getLsbD n = v.getLsbD (n + 1) := by
  rw [lsrResult, BitVec.getLsbD_ushiftRight, Nat.add_comm]

theorem getLsbD_rolResult (v : Byte) (c : Bool) {n : Nat} (hn : n < 8) :
    (rolResult v c).getLsbD n = if n = 0 then c else v.getLsbD (n - 1) := by
  rw [rolResult, BitVec.getLsbD_or, BitVec.getLsbD_shiftLeft, BitVec.getLsbD_append, BitVec.getLsbD_ofBool]
  cases n <;> simp [hn]

theorem getLsbD_rorResult (v : Byte) (c : Bool) {n : Nat} (hn : n < 8) :
    (rorResult v c).getLsbD n = if n = 7 then c else v.getLsbD (n + 1) := by
  rw [rorResult, BitVec.getLsbD_or, BitVec.getLsbD_ushiftRight, BitVec.getLsbD_append, BitVec.getLsbD_ofBool,
    Nat.add_comm]
  rcases Nat.lt_or_eq_of_le (Nat.le_of_lt_succ hn) with hlow | rfl
  · simp [hlow, hlow.ne]
  · simp

theorem getLsbD_asrResult (v : Byte) {n : Nat} (hn : n < 8) :
    (asrResult v).getLsbD n = v.getLsbD (if n = 7 then 7 else n + 1) := by
  have hmask : ∀ n, n < 8 → (0x80#8).getLsbD n = decide (n = 7) := by decide
  rw [asrResult, BitVec.getLsbD_or, BitVec.getLsbD_and, BitVec.getLsbD_ushiftRight, hmask n hn, Nat.add_comm]
  rcases Nat.lt_or_eq_of_le (Nat.le_of_lt_succ hn) with hlow | rfl
  · simp [hlow.ne]
  · simp

/-- ASR is the arithmetic shift. -/
theorem asrResult_eq_sshiftRight (v : Byte) : asrResult v = v.sshiftRight 1 := by
  apply BitVec.eq_of_getLsbD_eq
  intro n hn
  rw [getLsbD_asrResult v hn, BitVec.getLsbD_sshiftRight, BitVec.msb_eq_getLsbD_last, Nat.add_comm 1 n]
  rcases Nat.lt_or_eq_of_le (Nat.le_of_lt_succ hn) with hlow | rfl
  · have hnext : n + 1 < 8 := Nat.succ_lt_succ hlow
    simp [hnext, hlow.ne, Nat.not_le.2 hn]
  · simp

/-- Twice the register is the result, and the bit shifted out stands for 256 (R171). -/
theorem two_mul_toNat_eq_lslResult (v : Byte) :
    2 * v.toNat = (if v.getLsbD 7 then 256 else 0) + (lslResult v).toNat := by
  have htop : v.getLsbD 7 = decide (128 ≤ v.toNat) := (BitVec.msb_eq_getLsbD_last v).symm.trans (BitVec.msb_eq_decide v)
  have hlt := v.isLt
  rw [htop, lslResult, BitVec.toNat_shiftLeft, Nat.shiftLeft_eq]
  simp only [decide_eq_true_eq]
  split <;> omega

/-- The register is twice the result, and the bit shifted out is the remainder (R172). -/
theorem toNat_eq_two_mul_lsrResult (v : Byte) :
    v.toNat = 2 * (lsrResult v).toNat + (if v.getLsbD 0 then 1 else 0) := by
  rw [lsrResult, BitVec.toNat_ushiftRight, Nat.shiftRight_eq_div_pow, BitVec.getLsbD, Nat.testBit_zero]
  simp only [decide_eq_true_eq]
  split <;> omega

/-- ASR divides by two, rounding toward minus infinity (R175). -/
theorem toInt_asrResult (v : Byte) : (asrResult v).toInt = v.toInt / 2 := by
  rw [asrResult_eq_sshiftRight, BitVec.toInt_sshiftRight, Int.shiftRight_eq_div_pow]
  rfl

/-- SWAP exchanges the nibbles (R176). -/
theorem swapResult_nibbles (v : Byte) :
    (swapResult v).extractLsb' 4 4 = v.extractLsb' 0 4 ∧ (swapResult v).extractLsb' 0 4 = v.extractLsb' 4 4 :=
  ⟨BitVec.extractLsb'_append_eq_left, BitVec.extractLsb'_append_eq_right⟩

theorem swapResult_swapResult (v : Byte) : swapResult (swapResult v) = v := by
  obtain ⟨hhigh, hlow⟩ := swapResult_nibbles v
  rw [swapResult, hhigh, hlow]
  exact (BitVec.extractLsb'_append_extractLsb'_eq_extractLsb' rfl).trans BitVec.extractLsb'_eq_self

/-! ## Flags (R170) -/

/-- The flags that R170 gives a shift of result `r` with the bit `c` shifted out, of SREG `old` and `new`: H is `h`,
where `h` gives it. -/
def ShiftFlags (old new r : Byte) (c : Bool) (h : Option Bool) : Prop :=
  new.getLsbD 0 = c ∧ new.getLsbD 2 = r.getLsbD 7 ∧ new.getLsbD 1 = decide (r = 0) ∧
    new.getLsbD 3 = (new.getLsbD 2).xor (new.getLsbD 0) ∧ new.getLsbD 4 = (new.getLsbD 2).xor (new.getLsbD 3) ∧
    new.getLsbD 5 = h.getD (old.getLsbD 5) ∧ new.getLsbD 6 = old.getLsbD 6 ∧ new.getLsbD 7 = old.getLsbD 7

/-- S, V, N, Z and C stand in the low five bits. -/
theorem svnzc_bits (r : Byte) (c : Bool) :
    (svnzc r c).getLsbD 0 = c ∧ (svnzc r c).getLsbD 1 = decide (r = 0) ∧ (svnzc r c).getLsbD 2 = r.getLsbD 7 ∧
      (svnzc r c).getLsbD 3 = (r.getLsbD 7).xor c ∧ (svnzc r c).getLsbD 4 = (r.getLsbD 7).xor ((r.getLsbD 7).xor c) := by
  simp only [svnzc, BitVec.getLsbD_append, BitVec.getLsbD_ofBool]
  simp [Bool.beq_eq_decide_eq]

theorem rightShiftFlags_shiftFlags (sreg r : Byte) (c : Bool) :
    ShiftFlags sreg (rightShiftFlags sreg r c) r c none := by
  obtain ⟨hc, hz, hn, hv, hs⟩ := svnzc_bits r c
  simp only [ShiftFlags, rightShiftFlags, BitVec.getLsbD_append, hc, hz, hn, hv, hs]
  simp

theorem leftShiftFlags_shiftFlags (sreg v r : Byte) (c : Bool) :
    ShiftFlags sreg (leftShiftFlags sreg v r c) r c (some (v.getLsbD 3)) := by
  obtain ⟨hc, hz, hn, hv, hs⟩ := svnzc_bits r c
  simp only [ShiftFlags, leftShiftFlags, BitVec.getLsbD_append, hc, hz, hn, hv, hs]
  simp

/-- H and the five flags below it after a left shift, whatever SREG was. -/
theorem extractLsb'_leftShiftFlags (sreg v r : Byte) (c : Bool) :
    (leftShiftFlags sreg v r c).extractLsb' 0 6 = BitVec.ofBool (v.getLsbD 3) ++ svnzc r c := by
  rw [leftShiftFlags, BitVec.append_assoc]
  exact BitVec.extractLsb'_append_eq_right

/-! ## The two shared operations -/

section
variable {i : Instr} {d : Reg} {v r f : Byte} {c : Bool} {h : Option Bool} {s : State}

/-- An instruction that writes `r` to a register and `f` to SREG, and then ends. -/
theorem ShiftsTo.of_flags (hexec : exec i s = .next (retire 1 { s.setReg d r with sreg := f }))
    (hflags : ShiftFlags s.sreg f r c h) : ShiftsTo i d r c h s := by
  obtain ⟨hc, hn, hz, hv, hs, hh, ht, hi⟩ := hflags
  obtain ⟨_, hmem, haside, hevents, hended⟩ := retire_withSreg_frame (s.setReg d r) f
  exact ⟨_, hexec, State.reg_setReg_same s d r, hc, hn, hz, hv, hs, hh, ht, hi,
    (SameRegsBut.of_regs_eq rfl).setReg List.mem_cons_self r, hmem, haside, hevents, hended⟩

theorem ShiftsTo.of_shiftLeft (hexec : exec i s = shiftLeft d r s) (hv : s.reg d = v) :
    ShiftsTo i d r (v.getLsbD 7) (some (v.getLsbD 3)) s := by
  subst hv
  exact .of_flags hexec (leftShiftFlags_shiftFlags _ _ _ _)

theorem ShiftsTo.of_shiftRight (hexec : exec i s = shiftRight d r s) (hv : s.reg d = v) :
    ShiftsTo i d r (v.getLsbD 0) none s := by
  subst hv
  exact .of_flags hexec (rightShiftFlags_shiftFlags _ _ _)

/-! ## Each instruction (R171 to R175) -/

theorem lsl_shiftsTo (hv : s.reg d = v) :
    ShiftsTo (.lsl d) d (lslResult v) (v.getLsbD 7) (some (v.getLsbD 3)) s :=
  .of_shiftLeft (by rw [← hv]; rfl) hv

theorem lsr_shiftsTo (hv : s.reg d = v) : ShiftsTo (.lsr d) d (lsrResult v) (v.getLsbD 0) none s :=
  .of_shiftRight (by rw [← hv]; rfl) hv

theorem rol_shiftsTo (hv : s.reg d = v) (hc : s.flag flagC = c) :
    ShiftsTo (.rol d) d (rolResult v c) (v.getLsbD 7) (some (v.getLsbD 3)) s :=
  .of_shiftLeft (by rw [← hv, ← hc]; rfl) hv

theorem ror_shiftsTo (hv : s.reg d = v) (hc : s.flag flagC = c) :
    ShiftsTo (.ror d) d (rorResult v c) (v.getLsbD 0) none s :=
  .of_shiftRight (by rw [← hv, ← hc]; rfl) hv

theorem asr_shiftsTo (hv : s.reg d = v) : ShiftsTo (.asr d) d (asrResult v) (v.getLsbD 0) none s :=
  .of_shiftRight (by rw [← hv]; rfl) hv

/-- The register and all of SREG after a left shift. -/
theorem shiftLeft_next (hexec : exec i s = shiftLeft d r s) (hv : s.reg d = v) :
    ∃ t, exec i s = .next t ∧ t.reg d = r ∧ t.sreg = leftShiftFlags s.sreg v r (v.getLsbD 7) := by
  subst hv
  exact ⟨_, hexec, State.reg_setReg_same s d r, rfl⟩

/-- The register and all of SREG after a right shift. -/
theorem shiftRight_next (hexec : exec i s = shiftRight d r s) (hv : s.reg d = v) :
    ∃ t, exec i s = .next t ∧ t.reg d = r ∧ t.sreg = rightShiftFlags s.sreg r (v.getLsbD 0) := by
  subst hv
  exact ⟨_, hexec, State.reg_setReg_same s d r, rfl⟩

/-! ## The rotation of nine bits (R173) -/

/-- C above the register, which ROL rotates together. -/
def State.carryReg (s : State) (d : Reg) : BitVec 9 := BitVec.ofBool (s.flag flagC) ++ s.reg d

theorem State.of_carryReg_eq {t : State} (h : t.carryReg d = s.carryReg d) :
    t.flag flagC = s.flag flagC ∧ t.reg d = s.reg d := by
  have hreg := congrArg (BitVec.extractLsb' 0 8) h
  simp only [State.carryReg, BitVec.extractLsb'_append_eq_right] at hreg
  rw [State.carryReg, State.carryReg, hreg, BitVec.append_left_inj, BitVec.ofBool_eq_iff_eq] at h
  exact ⟨h, hreg⟩

/-- A bit of a rotation of nine bits is the bit that stood `n` places lower, around the end. -/
theorem getLsbD_rotateLeft_nine (x : BitVec 9) (n : Nat) {j : Nat} (hj : j < 9) :
    (x.rotateLeft n).getLsbD j = x.getLsbD ((j + 9 - n % 9) % 9) := by
  rw [BitVec.getLsbD_rotateLeft, cond_eq_ite, decide_eq_true hj, Bool.true_and]
  simp only [decide_eq_true_eq]
  split <;> (congr 1; omega)

theorem rotateLeft_rotateLeft_one (x : BitVec 9) (n : Nat) : (x.rotateLeft n).rotateLeft 1 = x.rotateLeft (n + 1) := by
  apply BitVec.eq_of_getLsbD_eq
  intro j hj
  rw [getLsbD_rotateLeft_nine _ _ hj, getLsbD_rotateLeft_nine _ _ (Nat.mod_lt _ (by decide)),
    getLsbD_rotateLeft_nine _ _ hj]
  congr 1
  omega

theorem rotateLeft_of_mod_eq_zero (x : BitVec 9) {n : Nat} (hn : n % 9 = 0) : x.rotateLeft n = x := by
  apply BitVec.eq_of_getLsbD_eq
  intro j hj
  rw [getLsbD_rotateLeft_nine _ _ hj, hn, Nat.sub_zero, Nat.add_mod_right, Nat.mod_eq_of_lt hj]

/-- The bit shifted out above the result of ROL is the old Carry above the register, rotated by one. -/
theorem carry_append_rolResult (v : Byte) (c : Bool) :
    BitVec.ofBool (v.getLsbD 7) ++ rolResult v c = (BitVec.ofBool c ++ v).rotateLeft 1 := by
  apply BitVec.eq_of_getLsbD_eq
  intro j hj
  rw [getLsbD_rotateLeft_nine _ _ hj, BitVec.getLsbD_append, BitVec.getLsbD_append, BitVec.getLsbD_ofBool,
    BitVec.getLsbD_ofBool]
  rcases Nat.lt_or_eq_of_le (Nat.le_of_lt_succ hj) with hlow | rfl
  · rw [if_pos hlow, getLsbD_rolResult _ _ hlow]
    cases j with
    | zero => rfl
    | succ m =>
      have hindex : (m + 1 + 9 - 1 % 9) % 9 = m := by omega
      have hm : m < 8 := by omega
      rw [hindex, if_neg m.succ_ne_zero, if_pos hm, Nat.add_sub_cancel]
  · rfl

/-- One ROL rotates the nine bits by one. -/
theorem exec_rol_carryReg (d : Reg) (s : State) :
    ∃ t, exec (.rol d) s = .next t ∧ t.carryReg d = (s.carryReg d).rotateLeft 1 ∧ SameRegsBut [d] s t := by
  obtain ⟨t, hexec, hreg, hc, _, _, _, _, _, _, _, hsame, _⟩ := rol_shiftsTo (d := d) (s := s) rfl rfl
  refine ⟨t, hexec, ?_, hsame⟩
  rw [State.carryReg, hreg, hc]
  exact carry_append_rolResult _ _

/-- `n` ROLs rotate the nine bits by `n`. -/
theorem execTimes_rol_carryReg (d : Reg) (n : Nat) (s : State) :
    ∃ t, execTimes (.rol d) n s = .next t ∧ t.carryReg d = (s.carryReg d).rotateLeft n ∧ SameRegsBut [d] s t := by
  induction n with
  | zero => exact ⟨s, rfl, (rotateLeft_of_mod_eq_zero _ rfl).symm, fun _ _ => rfl⟩
  | succ n ih =>
    obtain ⟨t, hexec, hrot, hsame⟩ := ih
    obtain ⟨u, hexec', hrot', hsame'⟩ := exec_rol_carryReg d t
    refine ⟨u, ?_, ?_, fun j hj => (hsame' j hj).trans (hsame j hj)⟩
    · rw [execTimes, hexec, andThen_next, hexec']
    · rw [hrot', hrot, rotateLeft_rotateLeft_one]

/-- Nine ROLs restore the register and C. -/
theorem execTimes_rol_nine (d : Reg) (s : State) :
    ∃ t, execTimes (.rol d) 9 s = .next t ∧ (∀ j, t.reg j = s.reg j) ∧ t.flag flagC = s.flag flagC := by
  obtain ⟨t, hexec, hrot, hsame⟩ := execTimes_rol_carryReg d 9 s
  have hback : t.carryReg d = s.carryReg d := hrot.trans (rotateLeft_of_mod_eq_zero _ rfl)
  obtain ⟨hc, hreg⟩ := State.of_carryReg_eq hback
  refine ⟨t, hexec, fun j => ?_, hc⟩
  rcases eq_or_ne j d with rfl | hj
  · exact hreg
  · exact hsame j (by simpa using hj)

end

end Sys2Proof.Machine
end

section
/-! SUPPORT. The bits of SREG (43_bit_and_bit_test.md R177, R178, R181 to R199) and of the I/O registers (R179, R180). -/

namespace Sys2Proof.Machine

open Config

section
variable {i : Instr} {a : IoAddr} {b : BitNum} {s : State}

/-! ## One flag (R177, R178, R199) -/

/-- The whole frame of an instruction that writes one flag and nothing else. -/
theorem setFlag_retire_frame (s : State) (b : BitNum) (x : Bool) :
    (retire 1 (s.setFlag b x)).flag b = x ∧ (∀ c, c ≠ b → (retire 1 (s.setFlag b x)).flag c = s.flag c) ∧
      SameRegsBut [] s (retire 1 (s.setFlag b x)) ∧ SameMem s (retire 1 (s.setFlag b x)) ∧
      SameAside s (retire 1 (s.setFlag b x)) ∧ (retire 1 (s.setFlag b x)).ioEvents = s.ioEvents ∧
      Ended 1 s (retire 1 (s.setFlag b x)) :=
  ⟨State.flag_setFlag_same s b x, fun _ hc => State.flag_setFlag_other s x hc,
    retire_withSreg_frame s (setBit s.sreg b x)⟩

/-- Setting a flag other than I cannot stop, and begins no hold-off. -/
theorem setSregBit_ne_flagI (hb : b ≠ flagI) (s : State) : setSregBit b s = .next (retire 1 (s.setFlag b true)) :=
  if_neg hb

/-- Setting I begins the hold-off, where interrupts are modelled (R189, R228). -/
theorem setSregBit_flagI (h : s.launch.interruptModel = .agent) :
    setSregBit flagI s = .next { retire 1 (s.setFlag flagI true) with holdoff := true } := by
  have hmodel : ¬ (s.launch.interruptModel = .none ∧ (setBit s.sreg flagI true).getLsbD 7 = true) := by simp [h]
  rw [setSregBit, if_pos rfl, writeSreg, if_neg hmodel, andThen_next]
  rfl

/-- Setting I is refused where no interrupt is modelled (R231). -/
theorem setSregBit_flagI_refused (h : s.launch.interruptModel = .none) :
    setSregBit flagI s = .refused .interruptsNotModelled := by
  have hset : (setBit s.sreg flagI true).getLsbD 7 = true := by
    rw [getLsbD_setBit _ _ _ _ (by decide)]
    rfl
  rw [setSregBit, if_pos rfl, writeSreg, if_pos ⟨h, hset⟩, andThen_refused]

/-- Clearing a flag cannot stop (R178). -/
theorem exec_clearsFlag (h : clearsFlag i = some b) (s : State) : exec i s = .next (retire 1 (s.setFlag b false)) :=
  exec_of_clearsFlag h

/-- Where setting the flag does not stop: the frame, and the hold-off where the flag is I. -/
theorem setSregBit_next (hmodel : b = flagI → s.launch.interruptModel = .agent) :
    ∃ t, setSregBit b s = .next t ∧ t.flag b = true ∧ (∀ c, c ≠ b → t.flag c = s.flag c) ∧ SameRegsBut [] s t ∧
      SameMem s t ∧ SameAside s t ∧ t.ioEvents = s.ioEvents ∧ (t.holdoff = true ↔ b = flagI) ∧ WindowsAged s t ∧
      t.pc.toNat = (s.pc.toNat + 1) % 2 ^ s.launch.device.pcBits % 65536 := by
  obtain ⟨hset, hkept, hregs, hmem, haside, hevents, ⟨hpc, _⟩, haged⟩ := setFlag_retire_frame s b true
  by_cases hb : b = flagI
  · subst hb
    exact ⟨_, setSregBit_flagI (hmodel rfl), hset, hkept, hregs, hmem, haside, hevents, by simp, haged, hpc⟩
  · exact ⟨_, setSregBit_ne_flagI hb s, hset, hkept, hregs, hmem, haside, hevents, by simp [hb], haged, hpc⟩

/-! ## The named forms (R183 to R198) -/

section
variable {same : Instr} {w : Word} {x : Bool} {before after : Byte}

/-- An instruction that writes one flag whatever the state. -/
theorem FlagForm.of_setFlag (hword : encode i = [w]) (hsame : encode same = [w])
    (hexec : ∀ s, exec i s = .next (retire 1 (s.setFlag b x))) (hafter : setBit before b x = after) :
    FlagForm i same w b x before after := by
  refine ⟨hword, hsame, fun s => ⟨_, hexec s, setFlag_retire_frame s b x⟩, fun s hs => ⟨_, hexec s, ?_⟩⟩
  rw [retire_sreg, State.setFlag_sreg, hs, hafter]

theorem flagForm_set (h : setsFlag i = some b) (hb : b ≠ flagI) (hword : encSreg 0 b = w)
    (hafter : setBit before b true = after) : FlagForm i (.bset b) w b true before after :=
  .of_setFlag ((encode_of_setsFlag h).trans (congrArg ([·]) hword)) (congrArg ([·]) hword)
    (fun s => (exec_of_setsFlag h).trans (setSregBit_ne_flagI hb s)) hafter

theorem flagForm_clear (h : clearsFlag i = some b) (hword : encSreg 1 b = w) (hafter : setBit before b false = after) :
    FlagForm i (.bclr b) w b false before after :=
  .of_setFlag ((encode_of_clearsFlag h).trans (congrArg ([·]) hword)) (congrArg ([·]) hword)
    (exec_clearsFlag h) hafter

end

/-! ## T (R181, R182) -/

theorem exec_bst (r : Reg) (b : BitNum) (s : State) :
    exec (.bst r b) s = .next (retire 1 (s.setFlag flagT ((s.reg r).getLsbD b.toNat))) := rfl

theorem exec_bld (d : Reg) (b : BitNum) (s : State) :
    exec (.bld d b) s = .next (retire 1 (s.setReg d (setBit (s.reg d) b (s.flag flagT)))) := rfl

theorem exec_swap (d : Reg) (s : State) : exec (.swap d) s = .next (retire 1 (s.setReg d (swapResult (s.reg d)))) := rfl

/-! ## SBI and CBI (R179, R180) -/

/-- SBI and CBI by the bit they write: the read, the device's turn, and the write of the whole byte. -/
theorem exec_ioBit (a : IoAddr) (b : BitNum) (x : Bool) (s : State) :
    exec (if x then .sbi a b else .cbi a b) s =
      finish 1 (ioWrite (midTurn (ioRead s a).2) a (setBit (ioRead s a).1 b x)) := by
  cases x <;> rfl

theorem ioRead_of_unmodelled (hreg : ioReg s.launch a = .unmodelled) :
    ioRead s a =
      (ioDraw s.draws a, { s.tick with ioEvents := .read a (ioDraw s.draws a) :: s.ioEvents }) := by
  rw [ioRead, hreg]

theorem ioWrite_of_unmodelled (hreg : ioReg s.launch a = .unmodelled) (v : Byte) :
    ioWrite s a v = .next { s with ioEvents := .write a v :: s.ioEvents } := by
  rw [ioWrite, hreg]

theorem ioRead_of_eedr (hreg : ioReg s.launch a = .eedr) : ioRead s a = (s.eedr, s) := by
  rw [ioRead, hreg]

theorem ioWrite_of_eedr (hreg : ioReg s.launch a = .eedr) (hidle : s.eeWrite = none) (v : Byte) :
    ioWrite s a v = .next { s with eedr := v } := by
  have hwrite : ioWrite s a v = eepromRegWrite s { s with eedr := v } := by rw [ioWrite, hreg]
  rw [hwrite, eepromRegWrite, if_neg (by simp [hidle])]

/-- On a register the spec does not model, SBI and CBI record the read and the write. -/
theorem exec_ioBit_unmodelled (hmid : s.noMidTurn) (hreg : ioReg s.launch a = .unmodelled) (b : BitNum) (x : Bool) :
    exec (if x then .sbi a b else .cbi a b) s =
      .next (retire 1 { s.tick with
        ioEvents := .write a (setBit (ioDraw s.draws a) b x) :: .read a (ioDraw s.draws a) :: s.ioEvents }) := by
  rw [exec_ioBit, midTurn_none (ioRead_noMidTurn hmid a), ioWrite_of_unmodelled (by rwa [ioRead_launch]), finish_next,
    ioRead_of_unmodelled hreg]

/-- On EEDR, with no write in progress, SBI and CBI write the one bit. -/
theorem exec_ioBit_eedr (hmid : s.noMidTurn) (hreg : ioReg s.launch a = .eedr) (hidle : s.eeWrite = none) (b : BitNum)
    (x : Bool) : exec (if x then .sbi a b else .cbi a b) s = .next (retire 1 { s with eedr := setBit s.eedr b x }) := by
  rw [exec_ioBit, ioRead_of_eedr hreg, midTurn_none hmid, ioWrite_of_eedr hreg hidle, finish_next]

end

end Sys2Proof.Machine
end

section
/-! The obligations about the bit operations and the bits of SREG and of the I/O registers. -/

namespace Sys2Proof.Proofs

open Machine

/-- Settles O13: a nibble of the result is the other nibble of the register. -/
theorem swapNibbles : Obligations.SwapNibbles := by
  unfold Obligations.SwapNibbles
  intro d s
  obtain ⟨hreg, hsame, hsreg, hmem, haside, hevents, hended⟩ :=
    (Loaded.refl (s := s)).setReg_retire_frame rfl d (swapResult (s.reg d)) 1
  obtain ⟨hhigh, hlow⟩ := swapResult_nibbles (s.reg d)
  rw [← hreg] at hhigh hlow
  refine ⟨_, exec_swap d s, hhigh, hlow, hsame, hsreg, hmem, haside, hevents, hended, _,
    exec_swap d _, fun j => ?_⟩
  rw [retire_reg, hreg, swapResult_swapResult]
  rcases eq_or_ne j d with rfl | hj
  · exact State.reg_setReg_same _ j _
  · rw [State.reg_setReg_other _ _ hj]
    exact hsame j (by simpa using hj)

/-- Settles O14: T is one flag, and the bit of the register one bit of a byte. -/
theorem bitThroughT : Obligations.BitThroughT := by
  unfold Obligations.BitThroughT
  refine ⟨fun r b s => ⟨_, exec_bst r b s, setFlag_retire_frame s flagT _⟩, fun d b s => ?_, fun r b d c s => ?_⟩
  · obtain ⟨hreg, hframe⟩ :=
      (Loaded.refl (s := s)).setReg_retire_frame rfl d (setBit (s.reg d) b (s.flag flagT)) 1
    refine ⟨_, exec_bld d b s, fun n hn => ?_, hframe⟩
    rw [hreg, getLsbD_setBit _ _ _ _ hn]
  · obtain ⟨hset, _⟩ := setFlag_retire_frame s flagT ((s.reg r).getLsbD b.toNat)
    refine ⟨_, _, exec_bst r b s, exec_bld d c _, ?_, hset⟩
    rw [retire_reg, State.reg_setReg_same, getLsbD_setBit _ _ _ _ c.isLt, if_pos rfl, hset]

/-- Settles O15: the result by its bits and as a number; the corner cases and the example are the same
rule at a known register. -/
theorem shiftLeft : Obligations.ShiftLeft := by
  unfold Obligations.ShiftLeft
  refine ⟨fun d s => ⟨lslResult (s.reg d), fun n hn => getLsbD_lslResult _ hn, two_mul_toNat_eq_lslResult _,
      lsl_shiftsTo rfl⟩, fun d s hv => lsl_shiftsTo hv, fun d s hv => lsl_shiftsTo hv, fun s hv => ?_,
    fun d => rfl, rfl⟩
  obtain ⟨t, hexec, hreg, hsreg⟩ := shiftLeft_next (i := .lsl 24) rfl hv
  refine ⟨t, hexec, ?_, ?_⟩
  · rw [hreg, hv]
    rfl
  · rw [hsreg, extractLsb'_leftShiftFlags, hv]
    rfl

/-- Settles O16: as LSL; N is 0 because no bit enters bit 7, and so V and S are C. -/
theorem shiftRight : Obligations.ShiftRight := by
  unfold Obligations.ShiftRight
  refine ⟨fun d s => ⟨lsrResult (s.reg d), fun n _ => getLsbD_lsrResult _ n, toNat_eq_two_mul_lsrResult _,
      lsr_shiftsTo rfl⟩, fun d s t hexec => ?_, fun d s hv => lsr_shiftsTo hv, fun s hv hs => ?_, rfl⟩
  · obtain ⟨u, hu, _, _, hn, _, hv, hs, _⟩ := lsr_shiftsTo (d := d) (s := s) rfl
    cases hexec.symm.trans hu
    have hzero : t.flag flagN = false := hn.trans ((getLsbD_lsrResult _ 7).trans (BitVec.getLsbD_of_ge _ _ (by decide)))
    rw [hzero, Bool.false_xor] at hv hs
    exact ⟨hzero, hv, hs.trans hv⟩
  · obtain ⟨t, hexec, hreg, hsreg⟩ := shiftRight_next (i := .lsr 16) rfl hv
    rw [hv] at hreg hsreg
    exact ⟨t, hexec, hreg, by rw [hsreg, hs]; rfl⟩

/-- Settles O17: as LSL, with the old Carry in bit 0; nine ROLs are the whole turn of C and the
register as nine bits. -/
theorem rotateLeft : Obligations.RotateLeft := by
  unfold Obligations.RotateLeft
  refine ⟨fun d s => ⟨rolResult (s.reg d) (s.flag flagC), fun n hn => getLsbD_rolResult _ _ hn, rol_shiftsTo rfl rfl⟩,
    execTimes_rol_nine, fun d s hv hc => rol_shiftsTo hv hc, fun d s hv hc => rol_shiftsTo hv hc, fun s hv hs => ?_,
    fun d => rfl, rfl⟩
  obtain ⟨t, hexec, hreg, hsreg⟩ := shiftLeft_next (i := .rol 25) rfl hv
  rw [hv, State.flag, hs] at hreg hsreg
  exact ⟨t, hexec, hreg, hsreg⟩

/-- Settles O18: as LSR, with the old Carry in bit 7, which is N. -/
theorem rotateRight : Obligations.RotateRight := by
  unfold Obligations.RotateRight
  refine ⟨fun d s => ⟨rorResult (s.reg d) (s.flag flagC), fun n hn => getLsbD_rorResult _ _ hn, ror_shiftsTo rfl rfl⟩,
    fun d s t hexec => ?_, fun d s hv hc => ror_shiftsTo hv hc, fun d s hv hc => ror_shiftsTo hv hc, fun s hv hs => ?_,
    rfl⟩
  · obtain ⟨u, hu, _, _, hn, _⟩ := ror_shiftsTo (d := d) (s := s) rfl rfl
    cases hexec.symm.trans hu
    exact hn.trans (getLsbD_rorResult _ _ (by decide))
  · obtain ⟨t, hexec, hreg, hsreg⟩ := shiftRight_next (i := .ror 16) rfl hv
    rw [hv, State.flag, hs] at hreg hsreg
    exact ⟨t, hexec, hreg, hsreg⟩

/-- Settles O19: as LSR, with bit 7 kept, which makes it the arithmetic shift. -/
theorem arithmeticShiftRight : Obligations.ArithmeticShiftRight := by
  unfold Obligations.ArithmeticShiftRight
  refine ⟨fun d s => ⟨asrResult (s.reg d), fun n hn => getLsbD_asrResult _ hn, toInt_asrResult _, asr_shiftsTo rfl⟩,
    fun d s hv => asr_shiftsTo hv, fun d s hv => asr_shiftsTo hv, fun d s hv => asr_shiftsTo hv, fun s hv hs => ?_, rfl⟩
  obtain ⟨t, hexec, hreg, hsreg⟩ := shiftRight_next (i := .asr 17) rfl hv
  rw [hv] at hreg hsreg
  exact ⟨t, hexec, hreg, by rw [hsreg, hs]; rfl⟩

/-- Settles O21: each is the set form of a flag other than I. -/
theorem namedSetForms : Obligations.NamedSetForms := by
  unfold Obligations.NamedSetForms
  refine ⟨?_, ?_, ?_, ?_, ?_, ?_, ?_⟩ <;> exact flagForm_set rfl (by decide) rfl rfl

/-- Settles O22: each is the clear form of a flag. -/
theorem namedClearForms : Obligations.NamedClearForms := by
  unfold Obligations.NamedClearForms
  refine ⟨?_, ?_, ?_, ?_, ?_, ?_, ?_⟩ <;> exact flagForm_clear rfl rfl rfl

/-- Settles O20: the set forms by whether the flag is I, which alone can be refused and begins the hold-off. -/
theorem oneFlagWritten : Obligations.OneFlagWritten := by
  unfold Obligations.OneFlagWritten
  refine ⟨fun i b s hset hmodel => ?_, fun i b s hclear => ?_, fun i s hset hmodel => ?_⟩
  · rw [exec_of_setsFlag hset]
    exact setSregBit_next hmodel
  · exact ⟨_, exec_clearsFlag hclear s, setFlag_retire_frame s b false⟩
  · rw [exec_of_setsFlag hset, setSregBit_flagI_refused hmodel]

/-- Settles O37: the device's turn, if there is one, is `midTurn`, between the read and the write. -/
theorem ioBitWritten : Obligations.IoBitWritten := by
  unfold Obligations.IoBitWritten
  refine ⟨fun a b s => ⟨fun hmid => ?_, fun e rest hagenda => ?_⟩,
    fun a b x s hmid => ⟨fun hreg => ?_, fun hreg hidle => ?_⟩⟩
  · have hturn := midTurn_none (ioRead_noMidTurn hmid a)
    exact ⟨hturn ▸ exec_ioBit a b true s, hturn ▸ exec_ioBit a b false s⟩
  · have hturn := midTurn_event ((ioRead_agenda s a).trans hagenda)
    exact ⟨hturn ▸ exec_ioBit a b true s, hturn ▸ exec_ioBit a b false s⟩
  · have hrecorded (es : List IoEvent) : Loaded es s { s.tick with ioEvents := es } := rfl
    obtain ⟨hsreg, hmem, haside, hevents, hended⟩ := (hrecorded (.write a _ :: .read a _ :: s.ioEvents)).retire_frame 1
    exact ⟨_, _, _, exec_ioBit_unmodelled hmid hreg b x, hevents, fun n hn => getLsbD_setBit _ b x n hn,
      fun _ _ => rfl, hsreg, hmem, haside, hended⟩
  · exact ⟨_, exec_ioBit_eedr hmid hreg hidle b x, fun n hn => getLsbD_setBit s.eedr b x n hn, rfl, rfl, rfl, rfl,
      EepromOnly.retire_ended rfl rfl⟩

end Sys2Proof.Proofs
end

section
/-! SUPPORT. The control operations (44_mcu_control.md R210 to R213), and the turn of a core that sleeps (R212, R225). -/

namespace Sys2Proof.Machine

open Config

section
variable {s : State}

/-- The end of an instruction changes what it says and nothing else. -/
theorem retire_onlyEnded (n : Nat) (s : State) : OnlyEnded n s (retire n s) :=
  ⟨fun _ _ => rfl, Loaded.refl.retire_frame n⟩

/-! ## NOP, BREAK and WDR (R210, R211, R213) -/

theorem exec_nop (s : State) : exec .nop s = .next (retire 1 s) := rfl

theorem exec_wdr (s : State) : exec .wdr s = .next (retire 1 { s with watchdog := 0 }) := rfl

theorem exec_brk_nop (hmode : s.launch.breakMode = .nop) : exec .brk s = .next (retire 1 s) := by
  rw [exec, execBrk, hmode]

theorem exec_brk_halt (hmode : s.launch.breakMode = .halt) : exec .brk s = .fault .debugHalt := by
  rw [exec, execBrk, hmode]

theorem exec_brk_refuse (hmode : s.launch.breakMode = .refuse) : exec .brk s = .refused .breakNotModelled := by
  rw [exec, execBrk, hmode]

/-! ## SLEEP (R212; log 7) -/

/-- MCUCR.SE decides: where it is 0, the core stays as it was. -/
theorem exec_sleep_mcucr (hmode : s.launch.sleepMode = .mcucr) :
    exec .sleep s = .next (retire 1 { s with asleep := s.asleep || s.mcucr.getLsbD 7 }) := by
  rw [exec, execSleep, hmode]
  cases hse : s.mcucr.getLsbD 7 with
  | true =>
    rw [Bool.or_true]
    rfl
  | false =>
    rw [Bool.or_false]
    rfl

theorem exec_sleep_nop (hmode : s.launch.sleepMode = .nop) : exec .sleep s = .next (retire 1 s) := by
  rw [exec, execSleep, hmode]

theorem exec_sleep_wait (hmode : s.launch.sleepMode = .wait) :
    exec .sleep s = .next (retire 1 { s with asleep := true }) := by
  rw [exec, execSleep, hmode]
  rfl

theorem exec_sleep_refuse (hmode : s.launch.sleepMode = .refuse) : exec .sleep s = .refused .sleepNotModelled := by
  rw [exec, execSleep, hmode]

/-! ## The turn of a sleeping core (R212, R225) -/

theorem coreTurn_asleep (h : s.asleep = true) : coreTurn s = .next s := if_pos h

/-- With no other turn due and no interrupt to take, the step is the core's turn, whether or not it sleeps. -/
theorem step_of_untaken (hend : s.atEnd = false) (hagenda : s.agenda = []) (hnone : s.takeable = none) :
    step s = coreTurn s := by
  simp only [step, hend, Bool.false_eq_true, if_false, hagenda, boundary, hnone]

/-- No interrupt is taken while I is 0 (R225). -/
theorem takeable_of_flagI_clear (h : s.flag flagI = false) : s.takeable = none :=
  if_neg fun ⟨_, hset, _⟩ => Bool.false_ne_true (h.symm.trans hset)

end

end Sys2Proof.Machine
end

section
/-! The obligations about the control operations. -/

namespace Sys2Proof.Proofs

open Machine

/-- Settles O47: each that completes is the end of an instruction of one word; WDR's comes after the counter is
cleared. -/
theorem nopBreakWdr : Obligations.NopBreakWdr := by
  unfold Obligations.NopBreakWdr
  refine ⟨fun s => ⟨_, exec_nop s, retire_onlyEnded 1 s⟩, fun s => ?_,
    fun s => ⟨_, exec_wdr s, rfl, retire_onlyEnded 1 _⟩⟩
  cases hmode : s.launch.breakMode with
  | nop => exact ⟨_, exec_brk_nop hmode, retire_onlyEnded 1 s⟩
  | halt => exact exec_brk_halt hmode
  | refuse => exact exec_brk_refuse hmode

/-- Settles O48: SLEEP by the launch parameter; a sleeping core's turn is the step where nothing else is due. -/
theorem sleepEnters : Obligations.SleepEnters := by
  unfold Obligations.SleepEnters
  refine ⟨fun s => ?_, fun s hend hagenda hasleep hnone => ?_, fun s hclear => takeable_of_flagI_clear hclear⟩
  · cases hmode : s.launch.sleepMode with
    | mcucr => exact ⟨_, exec_sleep_mcucr hmode, rfl, retire_onlyEnded 1 _⟩
    | nop => exact ⟨_, exec_sleep_nop hmode, retire_onlyEnded 1 s⟩
    | wait => exact ⟨_, exec_sleep_wait hmode, rfl, retire_onlyEnded 1 _⟩
    | refuse => exact exec_sleep_refuse hmode
  · exact (step_of_untaken hend hagenda hnone).trans (coreTurn_asleep hasleep)

end Sys2Proof.Proofs
end

section
/-! SUPPORT. The uses of EECR that set EERE or EEWE (60_exceptions.md R240 to R243, R245), and the turn in which the
EEPROM agent ends a write (R242). -/

namespace Sys2Proof.Machine

open Config

section
variable {a : IoAddr} {s t u : State} {v : Byte}

/-! ## Writes of EECR with EERE (R243), and its misuses (R241 to R243) -/

/-- Setting EERE alone, with no write in progress, reads the addressed cell into EEDR (R243). -/
theorem eecrWrite_read (hread : v.getLsbD 0 = true) (hstart : v.getLsbD 1 = false) (hidle : s.eeWrite = none)
    (haddr : s.eepromAddr < s.launch.device.eepromBytes) :
    eecrWrite s v =
      .next { s with
        eerie := v.getLsbD 3, eeWindow := if v.getLsbD 2 then .armed else .closed,
        eedr := s.mem.byte .eeprom s.eepromAddr } := by
  simp only [eecrWrite, hread, hstart, hidle, Option.isSome_none, Bool.false_eq_true, and_false, if_false, if_true]
  exact if_pos haddr

/-- The writes of EECR outside the procedure of R245: EERE together with EEWE, EERE while a write is in progress, EEWE
that would set EEMWE itself, and EEWE after the window's one instruction. -/
theorem eecrWrite_misuse
    (h : v.getLsbD 0 = true ∧ v.getLsbD 1 = true ∨
      v.getLsbD 0 = true ∧ s.eeWrite.isSome = true ∨
      v.getLsbD 1 = true ∧ s.eeWrite = none ∧ s.eeWindow = .closed ∧ v.getLsbD 2 = true ∨
      v.getLsbD 1 = true ∧ s.eeWrite = none ∧ s.eeWindow = .stale) :
    eecrWrite s v = .fault .eepromMisuse := by
  rcases h with ⟨hread, hstart⟩ | ⟨hread, hbusy⟩ | ⟨hstart, hidle, hclosed, hset⟩ | ⟨hstart, hidle, hstale⟩
  · simp only [eecrWrite, hread, hstart, and_self, if_true]
  · simp only [eecrWrite, hread, hbusy, if_true, ite_self]
  · cases hread : v.getLsbD 0
    · simp only [eecrWrite, hread, hstart, hidle, hclosed, hset, Option.isSome_none, Bool.false_eq_true, false_and,
        if_false, if_true]
    · simp only [eecrWrite, hread, hstart, and_self, if_true]
  · cases hread : v.getLsbD 0
    · simp only [eecrWrite, hread, hstart, hidle, hstale, Option.isSome_none, Bool.false_eq_true, false_and, if_false,
        if_true]
    · simp only [eecrWrite, hread, hstart, and_self, if_true]

theorem ioWrite_of_eecr (hreg : ioReg s.launch a = .eecr) (v : Byte) : ioWrite s a v = eecrWrite s v := by
  rw [ioWrite, hreg]

/-- A byte of the EEPROM always has a value (R71; log 5). -/
theorem Memory.read_eeprom (m : Memory) (n : Nat) : m.read .eeprom n = some (m.byte .eeprom n) := by
  unfold Memory.byte Memory.read
  split <;> rfl

/-! ## SBI on EECR (R179, R245) -/

/-- SBI on EECR reads it, sets the one bit and writes the whole byte. -/
theorem exec_sbi_eecr (hmid : s.noMidTurn) (hreg : ioReg s.launch a = .eecr) (b : BitNum) :
    exec (.sbi a b) s = finish 1 (eecrWrite s.tick (setBit s.eecr b true)) := by
  have hread : ioRead s a = (s.eecr, s.tick) := by rw [ioRead, hreg]
  have hexec := exec_ioBit a b true s
  rw [midTurn_none (ioRead_noMidTurn hmid a), ioWrite_of_eecr (by rwa [ioRead_launch]), hread] at hexec
  exact hexec

/-- `SBI EECR,2` with no write in progress opens the window (R241, R245 step 5). -/
theorem exec_sbi_eemwe (hmid : s.noMidTurn) (hreg : ioReg s.launch a = .eecr) (hidle : s.eeWrite = none) :
    exec (.sbi a 2) s = .next (retire 1 { s.tick with eeWindow := .armed }) := by
  obtain ⟨_, hie, _, hwe, hre⟩ := eecr_bits s
  have hbit := getLsbD_setBit s.eecr 2 true
  have h0 : (setBit s.eecr 2 true).getLsbD 0 = false := (hbit 0 (by decide)).trans hre
  have h1 : (setBit s.eecr 2 true).getLsbD 1 = false := (hbit 1 (by decide)).trans (hwe.trans (by rw [hidle]; rfl))
  have h2 : (setBit s.eecr 2 true).getLsbD 2 = true := hbit 2 (by decide)
  have h3 : (setBit s.eecr 2 true).getLsbD 3 = s.eerie := (hbit 3 (by decide)).trans hie
  rw [exec_sbi_eecr hmid hreg, eecrWrite_bits h0 (.inl h1), h2, h3]
  rfl

/-- `SBI EECR,1` in the window starts the write, with the address and the datum of this moment (R242, R245 step 6). -/
theorem exec_sbi_eewe (hmid : s.noMidTurn) (hreg : ioReg s.launch a = .eecr) (hidle : s.eeWrite = none)
    (hopen : s.eeWindow = .open) (hjob : s.spmJob = none) (haddr : s.eepromAddr < s.launch.device.eepromBytes) :
    exec (.sbi a 1) s =
      .next (retire 1 { s.tick with
        eeWindow := .closed, eeWrite := some { addr := s.eepromAddr, value := s.eedr } }) := by
  obtain ⟨_, hie, _, _, hre⟩ := eecr_bits s
  have hbit := getLsbD_setBit s.eecr 1 true
  have h0 : (setBit s.eecr 1 true).getLsbD 0 = false := (hbit 0 (by decide)).trans hre
  have h1 : (setBit s.eecr 1 true).getLsbD 1 = true := hbit 1 (by decide)
  have h3 : (setBit s.eecr 1 true).getLsbD 3 = s.eerie := (hbit 3 (by decide)).trans hie
  rw [exec_sbi_eecr hmid hreg, eecrWrite_start (s := s.tick) h0 h1 hidle hopen hjob haddr, h3]
  rfl

/-- `SBI EECR,1` after the window's one instruction (R241). -/
theorem exec_sbi_eewe_stale (hmid : s.noMidTurn) (hreg : ioReg s.launch a = .eecr) (hidle : s.eeWrite = none)
    (hstale : s.eeWindow = .stale) : exec (.sbi a 1) s = .fault .eepromMisuse := by
  have h1 : (setBit s.eecr 1 true).getLsbD 1 = true := getLsbD_setBit s.eecr 1 true 1 (by decide)
  rw [exec_sbi_eecr hmid hreg, eecrWrite_misuse (s := s.tick) (.inr (.inr (.inr ⟨h1, hidle, hstale⟩))), finish_fault]

/-! ## The end of a write (R242) -/

/-- One more byte written at an address that may change. -/
theorem SameMemBut.write {sp : Space} {hit : Nat → Prop} {n : Nat} (h : SameMemBut sp hit s t) (hn : hit n)
    (hu : u.mem = t.mem.write sp n v) : SameMemBut sp hit s u := by
  intro sp' c hc
  have hother : ¬(sp' = sp ∧ n = c) := fun ⟨hsp, hc'⟩ => hc ⟨hsp, hc' ▸ hn⟩
  rw [hu, Memory.read_write_other _ v hother]
  exact h sp' c hc

theorem deviceEvent_eepromDone {w : EepromWrite} (h : s.eeWrite = some w) :
    deviceEvent .eepromDone s = { s with mem := s.mem.write .eeprom w.addr w.value, eeWrite := none } := by
  change eepromFinish s = _
  simp only [eepromFinish, h]

/-- After the write ends the EEPROM holds its datum at its address, and every other byte as before. -/
theorem eepromDone_reads {w : EepromWrite} (h : s.eeWrite = some w) :
    (deviceEvent .eepromDone s).eeWrite = none ∧
      (deviceEvent .eepromDone s).mem.read .eeprom w.addr = some w.value ∧
      SameMemBut .eeprom (fun n => n = w.addr) s (deviceEvent .eepromDone s) := by
  have hbefore : SameMemBut .eeprom (fun n => n = w.addr) s s := fun _ _ _ => rfl
  rw [deviceEvent_eepromDone h]
  exact ⟨rfl, s.mem.read_write_same .eeprom w.addr w.value, hbefore.write rfl rfl⟩

/-- A device has the turn (log 15). -/
theorem step_of_device {e : DeviceEvent} {rest : List Turn} (hend : s.atEnd = false)
    (hagenda : s.agenda = .device e :: rest) : step s = .next (deviceEvent e { s with agenda := rest }) := by
  simp only [step, hend, Bool.false_eq_true, if_false, hagenda]

end

end Sys2Proof.Machine
end

section
/-! The obligations about EECR and the EEPROM's write. -/

namespace Sys2Proof.Proofs

open Machine

/-- Settles O39: the write of EECR is the EEPROM read, and the rest is the frame of a write of the EEPROM's
registers. -/
theorem eereSet : Obligations.EereSet := by
  unfold Obligations.EereSet
  intro a r s hreg hread hstart hidle haddr
  have hout := exec_out_eecr hreg (eecrWrite_read hread hstart hidle haddr)
  refine ⟨_, hout, s.mem.read_eeprom _, rfl, rfl, rfl, hidle, ?_, EepromOnly.retire_frame rfl⟩
  rw [retire_eeWindow]
  split <;> rfl

/-- Settles O40: OUT to EECR stops where the write of EECR is a misuse. -/
theorem eecrMisuse : Obligations.EecrMisuse := by
  unfold Obligations.EecrMisuse
  intro a r s hreg hmisuse
  rw [exec_out, ioWrite_of_eecr hreg, eecrWrite_misuse hmisuse, finish_fault]

/-- Settles O41: the step is the EEPROM agent's turn, which writes the one byte. -/
theorem eepromWriteEnds : Obligations.EepromWriteEnds := by
  unfold Obligations.EepromWriteEnds
  intro s w rest hend hagenda hwrite
  obtain ⟨hidle, hread, hother⟩ := eepromDone_reads (s := { s with agenda := rest }) hwrite
  refine ⟨_, step_of_device hend hagenda, hidle, hread, hother, ?_⟩
  rw [deviceEvent_eepromDone (s := { s with agenda := rest }) hwrite]
  exact ⟨fun _ _ => rfl, rfl, ⟨rfl, rfl⟩, ⟨rfl, rfl, rfl⟩, rfl, rfl, rfl, rfl, rfl, rfl, rfl, rfl, rfl, rfl, rfl, rfl,
    rfl, rfl, rfl, rfl, rfl, rfl⟩

/-- Settles O42: the first SBI opens the window for the second; one NOP makes it stale. -/
theorem eepromWriteProcedure : Obligations.EepromWriteProcedure := by
  unfold Obligations.EepromWriteProcedure
  intro a s hreg hmid hidle hjob haddr
  obtain ⟨hended, hread, hother⟩ := eepromDone_reads
    (s := retire 1 { (retire 1 { s.tick with eeWindow := .armed }).tick with
      eeWindow := .closed, eeWrite := some { addr := s.eepromAddr, value := s.eedr } }) rfl
  exact ⟨_, exec_sbi_eemwe hmid hreg hidle,
    ⟨_, exec_sbi_eewe hmid hreg hidle rfl hjob haddr, rfl, fun _ _ => rfl, hended, hread,
      fun b hb => hother .eeprom b fun h => hb h.2⟩,
    _, exec_nop _, exec_sbi_eewe_stale hmid hreg hidle rfl⟩

end Sys2Proof.Proofs
end

section
/-! SUPPORT. The requests of the interrupt agent (60_exceptions.md R220 to R231): which one is taken, the hold-off, and
that no instruction changes a request or an enable. -/

namespace Sys2Proof.Machine

open Config

/-! ## The sources in the order of their priority (R220, R223) -/

theorem mem_byPriority (v : Irq) : v ∈ Irq.byPriority := by
  cases v <;> decide

/-- The lower the vector number, the higher the priority (R223). -/
theorem byPriority_sorted : Irq.byPriority.Pairwise (·.number < ·.number) := by
  decide

/-- In a list sorted by `f` the first element that has the property is the one that has the least `f`. -/
theorem find?_eq_some_iff_least {α : Type} {f : α → Nat} {p : α → Bool} {l : List α} {v : α}
    (hsorted : l.Pairwise (f · < f ·)) :
    l.find? p = some v ↔ v ∈ l ∧ p v = true ∧ ∀ w ∈ l, p w = true → f v ≤ f w := by
  induction l with
  | nil => simp
  | cons x l ih =>
    obtain ⟨hfirst, hrest⟩ := List.pairwise_cons.1 hsorted
    cases hx : p x with
    | false =>
      have hne {w : α} (hw : p w = true) : w ≠ x := fun e => by simp [e, hx] at hw
      rw [List.find?_cons_of_neg (by simp [hx]), ih hrest]
      constructor
      · rintro ⟨hmem, hv, hleast⟩
        exact ⟨List.mem_cons_of_mem x hmem, hv, fun w hw hp => hleast w (List.mem_of_ne_of_mem (hne hp) hw) hp⟩
      · rintro ⟨hmem, hv, hleast⟩
        exact ⟨List.mem_of_ne_of_mem (hne hv) hmem, hv, fun w hw => hleast w (List.mem_cons_of_mem x hw)⟩
    | true =>
      rw [List.find?_cons_of_pos hx, Option.some.injEq]
      constructor
      · rintro rfl
        refine ⟨List.mem_cons_self, hx, fun w hw _ => ?_⟩
        rcases List.mem_cons.1 hw with rfl | hw
        · exact le_rfl
        · exact (hfirst w hw).le
      · rintro ⟨hmem, _, hleast⟩
        rcases List.mem_cons.1 hmem with rfl | hmem
        · rfl
        · exact absurd (hleast x List.mem_cons_self hx) (hfirst v hmem).not_ge

section
variable {i : Instr} {s t u : State}

/-! ## Which interrupt can be taken (R225, R228) -/

/-- With the agent, I set and no hold-off, the interrupt taken is the requested one of least number (R223, R225). -/
theorem takeable_eq_find? (hmodel : s.launch.interruptModel = .agent) (hset : s.flag flagI = true)
    (hhold : s.holdoff = false) :
    s.takeable = Irq.byPriority.find? fun v =>
      decide (v.number ≤ s.launch.device.vectorCount) && s.pending v && s.enabled v :=
  if_pos ⟨hmodel, hset, hhold⟩

theorem takeable_some {v : Irq} (h : s.takeable = some v) :
    s.launch.interruptModel = .agent ∧ s.flag flagI = true ∧ s.holdoff = false := by
  unfold State.takeable at h
  split at h
  · assumption
  · cases h

/-- No interrupt is taken while the hold-off is in force (R228). -/
theorem takeable_of_holdoff (h : s.holdoff = true) : s.takeable = none :=
  if_neg fun ⟨_, _, hoff⟩ => Bool.false_ne_true (hoff.symm.trans h)

/-! ## The end of the hold-off (R228) -/

theorem finish_holdoff {n : Nat} {r : Res State} : Gives (finish n r) fun t => t.holdoff = false := by
  intro t h
  obtain ⟨u, _, rfl⟩ := (finish_eq_next n r t).1 h
  rfl

/-- Setting a flag other than I ends the hold-off. -/
theorem setsFlag_holdoff {b : BitNum} (hset : setsFlag i = some b) (hne : setsFlag i ≠ some flagI) :
    Gives (exec i s) fun t => t.holdoff = false := by
  have hb : b ≠ flagI := fun e => hne (e ▸ hset)
  rw [exec_of_setsFlag hset, setSregBit_ne_flagI hb]
  exact .next rfl

theorem clearsFlag_holdoff {b : BitNum} (hclear : clearsFlag i = some b) :
    Gives (exec i s) fun t => t.holdoff = false := by
  rw [exec_clearsFlag hclear]
  exact .next rfl

theorem execXch_holdoff (d : Reg) : Gives (execXch d s) fun t => t.holdoff = false := by
  unfold execXch
  split
  · exact .fault
  · exact finish_holdoff

theorem execBrk_holdoff : Gives (execBrk s) fun t => t.holdoff = false := by
  unfold execBrk
  split
  · exact .next rfl
  · exact .fault
  · exact .refused

theorem execSleep_holdoff : Gives (execSleep s) fun t => t.holdoff = false := by
  unfold execSleep
  split
  · split <;> exact .next rfl
  · exact .next rfl
  · exact .next rfl
  · exact .refused

/-- Every instruction that completes ends the hold-off, but those that set I. -/
theorem exec_holdoff (h : setsFlag i ≠ some flagI) : Gives (exec i s) fun t => t.holdoff = false := by
  cases i with
  | mov d r | movw d r | ldi d k | swap d | inp d a | lsl d | lsr d | rol d | ror d | asr d | bst r b | bld d b | nop
  | wdr => exact .next rfl
  | lds d k | lds16 d k | ldX d | ldXInc d | ldXDec d | ldY d | ldYInc d | ldYDec d | ldZ d | ldZInc d | ldZDec d
  | lddY d q | lddZ d q => exact finish_holdoff
  | sts k r | sts16 k r | stX r | stXInc r | stXDec r | stY r | stYInc r | stYDec r | stdY q r | stZ r | stZInc r
  | stZDec r | stdZ q r => exact finish_holdoff
  | lpm | lpmZ d | lpmZInc d | elpm | elpmZ d | elpmZInc d | spm | spmZInc => exact finish_holdoff
  | out a r | sbi a b | cbi a b | push r | pop d => exact finish_holdoff
  | bset b | sec | sez | sen | sev | ses | seh | setT | sei => exact setsFlag_holdoff rfl h
  | bclr b | clc | clz | cln | clv | cls | clh | clt | cli => exact clearsFlag_holdoff rfl
  | xch d => exact execXch_holdoff d
  | brk => exact execBrk_holdoff
  | sleep => exact execSleep_holdoff

/-! ## Requests and enables (R225, R226, R230) -/

/-- The request flags, the levels and the enable bits of the interrupt agent (log 21, log 41). -/
def State.requests (s : State) : BitVec 22 × BitVec 22 × BitVec 22 := (s.irqFlags, s.irqLevels, s.irqEnables)

theorem requests_eq_iff :
    u.requests = s.requests ↔ u.irqFlags = s.irqFlags ∧ u.irqLevels = s.irqLevels ∧ u.irqEnables = s.irqEnables := by
  simp only [State.requests, Prod.mk.injEq]

/-- The operation, if it answers, leaves the requests and the enables of `s`. -/
def KeepsRequests (s : State) (r : Res State) : Prop := Gives r fun u => u.requests = s.requests

/-- As `KeepsRequests`, for an operation that also answers a byte. -/
def ReadKeepsRequests (s : State) (r : Res (Byte × State)) : Prop := Gives r fun q => q.2.requests = s.requests

theorem KeepsRequests.of_same {r : Res State} (h : KeepsRequests t r) (ht : t.requests = s.requests) :
    KeepsRequests s r :=
  fun u hu => (h u hu).trans ht

theorem KeepsRequests.finish {n : Nat} {r : Res State} (h : KeepsRequests s r) : KeepsRequests s (finish n r) :=
  h.andThen fun _ hu => .next hu

/-- A change of the state that keeps the requests, after an operation that does. -/
theorem KeepsRequests.andThen_next {r : Res State} (h : KeepsRequests s r) {k : State → State}
    (hk : ∀ u, (k u).requests = u.requests) : KeepsRequests s (andThen r fun u => .next (k u)) :=
  h.andThen fun u hu => .next ((hk u).trans hu)

/-- A read, then a change of the state that it leaves that keeps the requests. -/
theorem ReadKeepsRequests.andThen_next {r : Res (Byte × State)} (h : ReadKeepsRequests s r) {k : Byte × State → State}
    (hk : ∀ q, (k q).requests = q.2.requests) : KeepsRequests s (andThen r fun q => .next (k q)) :=
  h.andThen fun q hq => .next ((hk q).trans hq)

/-- A read into a general register. -/
theorem ReadKeepsRequests.setReg {r : Res (Byte × State)} (h : ReadKeepsRequests s r) (d : Reg) :
    KeepsRequests s (andThen r fun q => .next (q.2.setReg d q.1)) :=
  h.andThen_next fun _ => rfl

theorem setDataPtr_requests (s : State) (p : Ptr) (v : Word) : (s.setDataPtr p v).requests = s.requests := by
  rw [State.setDataPtr_state]
  rfl

theorem ioRead_requests (s : State) (a : IoAddr) : (ioRead s a).2.requests = s.requests := by
  rw [ioRead_state]
  rfl

theorem ioWrite_requests (a : IoAddr) (v : Byte) : KeepsRequests s (ioWrite s a v) := by
  intro u hu
  rw [ioWrite_next hu]
  rfl

theorem memRead_requests (a : Word) : ReadKeepsRequests s (memRead s a) := by
  unfold memRead
  split
  · exact .next rfl
  · exact .next (ioRead_requests s _)
  · split
    · exact .next rfl
    · exact .fault
  · exact .refused

theorem memWrite_requests (a : Word) (v : Byte) : KeepsRequests s (memWrite s a v) := by
  intro u hu
  rcases memWrite_next hu with ⟨k, _, rfl⟩ | ⟨b, _, hio⟩ | ⟨b, _, rfl⟩
  · rfl
  · exact ioWrite_requests b v u hio
  · rfl

theorem progRead_requests (ba : Nat) : ReadKeepsRequests s (progRead s ba) := by
  unfold progRead
  split
  · exact .refused
  · split <;> exact .next rfl

theorem lpmRead_requests (ba : Nat) : ReadKeepsRequests s (lpmRead s ba) := by
  unfold lpmRead
  split
  · exact .refused
  · split
    · exact .next rfl
    · exact progRead_requests ba

theorem loadAt_requests (d : Reg) (a : Word) : KeepsRequests s (loadAt d a s) :=
  (memRead_requests a).setReg d

theorem loadInc_requests (p : Ptr) (d : Reg) : KeepsRequests s (loadInc p d s) := by
  unfold loadInc
  split
  · exact .fault
  · exact (memRead_requests _).andThen_next fun _ => setDataPtr_requests _ _ _

theorem loadDec_requests (p : Ptr) (d : Reg) : KeepsRequests s (loadDec p d s) := by
  unfold loadDec
  split
  · exact .fault
  · exact (loadAt_requests _ _).of_same (setDataPtr_requests _ _ _)

theorem storeInc_requests (p : Ptr) (r : Reg) : KeepsRequests s (storeInc p r s) := by
  unfold storeInc
  split
  · exact .fault
  · exact (memWrite_requests _ _).andThen_next fun _ => setDataPtr_requests _ _ _

theorem storeDec_requests (p : Ptr) (r : Reg) : KeepsRequests s (storeDec p r s) := by
  unfold storeDec
  split
  · exact .fault
  · exact (memWrite_requests _ _).of_same (setDataPtr_requests _ _ _)

theorem loadProgInc_requests (d : Reg) : KeepsRequests s (loadProgInc d s) := by
  unfold loadProgInc
  split
  · exact .fault
  · exact (lpmRead_requests _).andThen_next fun _ => rfl

theorem loadProgExtInc_requests (d : Reg) : KeepsRequests s (loadProgExtInc d s) := by
  unfold loadProgExtInc
  split
  · exact .fault
  · exact (progRead_requests _).andThen_next fun _ => rfl

theorem spmOperation_requests : KeepsRequests s (spmOperation s) := by
  intro u hu
  rw [spmOperation_next hu]
  rfl

theorem popByte_requests : ReadKeepsRequests s (popByte s) := memRead_requests (s := s.setSp (s.sp + 1)) _

theorem changeIoBit_requests (hmid : s.noMidTurn) (a : IoAddr) (b : BitNum) (x : Bool) :
    KeepsRequests s (changeIoBit a b x s) := by
  simp only [changeIoBit, midTurn_none (ioRead_noMidTurn hmid a)]
  exact (ioWrite_requests _ _).of_same (ioRead_requests s a)

theorem exchange_requests (hmid : s.noMidTurn) (d : Reg) (a : Word) : KeepsRequests s (exchange d a s) := by
  intro u hu
  obtain ⟨q, hread, hwrite⟩ := (andThen_eq_next _ _ _).1 hu
  rw [midTurn_none ((memRead_sramOnly a q hread).noMidTurn hmid)] at hwrite
  have hwritten := (memWrite_requests a (s.reg d)).of_same (memRead_requests a q hread)
  exact hwritten.andThen_next (k := fun t => t.setReg d q.1) (fun _ => rfl) u hwrite

theorem execXch_requests (hmid : s.noMidTurn) (d : Reg) : KeepsRequests s (execXch d s) := by
  unfold execXch
  split
  · exact .fault
  · exact (exchange_requests hmid d _).finish

theorem setSregBit_requests (b : BitNum) : KeepsRequests s (setSregBit b s) := by
  unfold setSregBit
  split
  · unfold writeSreg
    split
    · exact .refused
    · exact .next rfl
  · exact .next rfl

theorem setsFlag_requests {b : BitNum} (h : setsFlag i = some b) : KeepsRequests s (exec i s) := by
  rw [exec_of_setsFlag h]
  exact setSregBit_requests b

theorem execBrk_requests : KeepsRequests s (execBrk s) := by
  unfold execBrk
  split
  · exact .next rfl
  · exact .fault
  · exact .refused

theorem execSleep_requests : KeepsRequests s (execSleep s) := by
  unfold execSleep
  split
  · split <;> exact .next rfl
  · exact .next rfl
  · exact .next rfl
  · exact .refused

/-- No instruction changes a request or an enable: only the agenda's turns and the entry of an interrupt do (log 21). -/
theorem exec_requests (hmid : s.noMidTurn) : KeepsRequests s (exec i s) := by
  cases i with
  | mov d r | movw d r | ldi d k | swap d | lsl d | lsr d | rol d | ror d | asr d | bst r b | bld d b | nop | wdr =>
    exact .next rfl
  | lds d k | lds16 d k | ldX d | ldY d | ldZ d | lddY d q | lddZ d q => exact (loadAt_requests _ _).finish
  | ldXInc d | ldYInc d | ldZInc d => exact (loadInc_requests _ _).finish
  | ldXDec d | ldYDec d | ldZDec d => exact (loadDec_requests _ _).finish
  | sts k r | sts16 k r | stX r | stY r | stZ r | stdY q r | stdZ q r => exact (memWrite_requests _ _).finish
  | stXInc r | stYInc r | stZInc r => exact (storeInc_requests _ _).finish
  | stXDec r | stYDec r | stZDec r => exact (storeDec_requests _ _).finish
  | lpm | lpmZ d => exact ((lpmRead_requests _).setReg _).finish
  | lpmZInc d => exact (loadProgInc_requests _).finish
  | elpm | elpmZ d => exact ((progRead_requests _).setReg _).finish
  | elpmZInc d => exact (loadProgExtInc_requests _).finish
  | spm => exact spmOperation_requests.finish
  | spmZInc => exact KeepsRequests.finish (spmOperation_requests.andThen fun _ h => .next h)
  | inp d a => exact .next (ioRead_requests s a)
  | out a r => exact (ioWrite_requests _ _).finish
  | push r => exact KeepsRequests.finish ((memWrite_requests _ _).andThen fun _ h => .next h)
  | pop d => exact (popByte_requests.setReg _).finish
  | xch d => exact execXch_requests hmid d
  | sbi a b | cbi a b => exact (changeIoBit_requests hmid _ _ _).finish
  | bset b | sec | sez | sen | sev | ses | seh | setT | sei => exact setsFlag_requests rfl
  | bclr b | clc | clz | cln | clv | cls | clh | clt | cli => exact .next rfl
  | brk => exact execBrk_requests
  | sleep => exact execSleep_requests

/-- The request of EE_RDY is the level EEWE = 0, and EERIE enables it (R244). -/
theorem eeRdy_requests (h : s.launch.eepromModel = .device) :
    s.pending .eeRdy = !s.eeWrite.isSome ∧ s.enabled .eeRdy = s.eerie :=
  ⟨if_pos ⟨rfl, h⟩, if_pos ⟨rfl, h⟩⟩

/-- The request of a source with a low-level mode is its flag or its level (R226; log 41). -/
theorem pending_of_hasLevel {v : Irq} (h : v.hasLevel = true) :
    s.pending v = (s.irqFlags.getLsbD v.number || s.irqLevels.getLsbD v.number) := by
  have hee : v ≠ .eeRdy := fun e => by simp [e, Irq.hasLevel] at h
  have hspm : v ≠ .spmRdy := fun e => by simp [e, Irq.hasLevel] at h
  rw [State.pending, if_neg fun hv => hee hv.1, if_neg fun hv => hspm hv.1, h, Bool.true_and]

end

end Sys2Proof.Machine
end

section
/-! The obligations about the vectors, the requests and the hold-off. -/

namespace Sys2Proof.Proofs

open Machine

/-- Settles O49: the stride and the numbers are those of the table. -/
theorem vectorAddresses : Obligations.VectorAddresses := by
  unfold Obligations.VectorAddresses
  refine ⟨fun _ _ => rfl, rfl, rfl, fun n hlo _ => ⟨rfl, ?_⟩, rfl, mem_byPriority, rfl, rfl, rfl, rfl⟩
  change 2 * (n + 1 - 1) = 2 * (n - 1) + 2
  omega

/-- Settles O50: the first requested source in the order of priority is the one of least number. -/
theorem takenWhen : Obligations.TakenWhen := by
  unfold Obligations.TakenWhen
  intro s v
  constructor
  · intro htaken
    obtain ⟨hmodel, hset, hhold⟩ := takeable_some htaken
    rw [takeable_eq_find? hmodel hset hhold, find?_eq_some_iff_least byPriority_sorted] at htaken
    obtain ⟨_, hv, hleast⟩ := htaken
    simp only [Bool.and_eq_true, decide_eq_true_eq] at hv hleast
    obtain ⟨⟨hcount, hpending⟩, henabled⟩ := hv
    refine ⟨hmodel, hset, hhold, hcount, hpending, henabled, fun w hpending henabled => ?_⟩
    by_cases hw : w.number ≤ s.launch.device.vectorCount
    · exact hleast w (mem_byPriority w) ⟨⟨hw, hpending⟩, henabled⟩
    · omega
  · rintro ⟨hmodel, hset, hhold, hcount, hpending, henabled, hleast⟩
    rw [takeable_eq_find? hmodel hset hhold, find?_eq_some_iff_least byPriority_sorted]
    simp only [Bool.and_eq_true, decide_eq_true_eq]
    exact ⟨mem_byPriority v, ⟨⟨hcount, hpending⟩, henabled⟩,
      fun w _ ⟨⟨_, hpending⟩, henabled⟩ => hleast w hpending henabled⟩

/-- Settles O53: setting I begins the hold-off, the end of every other instruction ends it, and CLI clears I. -/
theorem holdOff : Obligations.HoldOff := by
  unfold Obligations.HoldOff
  refine ⟨fun i s hset hmodel => ?_, fun i s t hset hexec => exec_holdoff hset t hexec, fun i s hclear => ?_⟩
  · exact ⟨_, (exec_of_setsFlag hset).trans (setSregBit_flagI hmodel), State.flag_setFlag_same s flagI true, rfl,
      takeable_of_holdoff rfl⟩
  · exact ⟨_, exec_clearsFlag hclear s, takeable_of_flagI_clear (State.flag_setFlag_same s flagI false)⟩

/-- Settles O54: no instruction changes a request; the requests of EE_RDY, INT0 and INT1 are read off their rules. -/
theorem requestsRemembered : Obligations.RequestsRemembered := by
  unfold Obligations.RequestsRemembered
  refine ⟨fun i s t hmid hexec => requests_eq_iff.1 (exec_requests hmid t hexec), fun s hmodel => ?_, fun s v hv => ?_⟩
  · obtain ⟨hpending, henabled⟩ := eeRdy_requests hmodel
    simp [hpending, henabled]
  · have hlevel : v.hasLevel = true := by rcases hv with rfl | rfl <;> rfl
    rw [pending_of_hasLevel hlevel, Bool.or_eq_true]

end Sys2Proof.Proofs
end

section
/-! SUPPORT. The entry of an interrupt (60_exceptions.md R229) and the return from one (R232), by where the two bytes of
the return address go. -/

namespace Sys2Proof.Machine

open Config

section
variable {s : State}

/-! ## The two addresses of the return address (R31, R229) -/

theorem andThen_assoc {α β γ : Type} (r : Res α) (f : α → Res β) (g : β → Res γ) :
    andThen (andThen r f) g = andThen r fun a => andThen (f a) g := by
  cases r <;> rfl

/-- The entry is two stores, each followed by SP one less, then the jump to the vector. -/
theorem enterInterrupt_eq (s : State) (v : Irq) :
    enterInterrupt v s =
      andThen (memWrite s.enterHandler s.sp (lowByte s.pc)) fun t =>
        andThen (memWrite t.spLowered t.spLowered.sp (highByte s.pc)) fun u => .next (u.spLowered.atVector v) := by
  simp only [enterInterrupt, pushByte, andThen_assoc, andThen_next]
  rfl

theorem State.Inv.spLowered (h : s.Inv) : s.spLowered.Inv := by
  obtain ⟨_, hbits, _⟩ := Device.wf_bounds h.device
  exact { h with sp := toNat_and_lowMask_lt _ hbits }

theorem State.spLowered_toNat (h : s.Inv) :
    s.spLowered.sp.toNat = (s.sp.toNat + 2 ^ s.launch.device.spBits - 1) % 2 ^ s.launch.device.spBits :=
  setSp_pred_toNat h

/-- SP after one push is the address below it. -/
theorem State.spLowered_sp (h : s.Inv) : s.spLowered.sp = s.spBelow := by
  rw [State.spBelow, ← State.spLowered_toNat h, BitVec.ofNat_toNat, BitVec.setWidth_eq]

/-- Where the second byte of the return address goes: the first one leaves SP and the launch parameters. -/
theorem dataPlace_spLowered (h : s.Inv) {t : State} (hsp : t.sp = s.sp) (hlaunch : t.launch = s.launch) :
    dataPlace t.spLowered.launch.device t.spLowered.sp = dataPlace s.launch.device s.spBelow := by
  have hlow : t.spLowered.sp = s.spBelow := by
    rw [← State.spLowered_sp h, State.spLowered, State.spLowered, State.setSp_sp, State.setSp_sp, hsp, hlaunch]
  have hkept : t.spLowered.launch = s.launch := hlaunch
  rw [hlow, hkept]

/-- The address below SP is another one, as SP has at least one bit. -/
theorem State.spBelow_ne_sp (h : s.Inv) (hpos : 0 < s.launch.device.spBits) : s.spBelow ≠ s.sp := by
  intro hsame
  have hlow := State.spLowered_toNat h
  rw [State.spLowered_sp h, hsame] at hlow
  have hback := succ_mod_of_pred_mod h.sp hlow
  have hlt := h.sp
  have htwo : 2 ^ 1 ≤ 2 ^ s.launch.device.spBits := Nat.pow_le_pow_right (by decide) hpos
  by_cases hlast : s.sp.toNat + 1 < 2 ^ s.launch.device.spBits
  · rw [Nat.mod_eq_of_lt hlast] at hback
    omega
  · rw [show s.sp.toNat + 1 = 2 ^ s.launch.device.spBits by omega, Nat.mod_self] at hback
    omega

/-! ## Entry where the two bytes go to registers or SRAM (R229) -/

/-- The state at the vector, where the two stores of the entry left the register file `regs` and the memories `mem`. -/
def State.entered (s : State) (v : Irq) (regs : Vector Byte 32) (mem : Memory) : State :=
  State.atVector { s.enterHandler with regs := regs, mem := mem }.spLowered.spLowered v

/-- Both bytes go to SRAM. -/
theorem enterInterrupt_sram (h : s.Inv) {a b : Nat} (hfirst : dataPlace s.launch.device s.sp = .sram a)
    (hsecond : dataPlace s.launch.device s.spBelow = .sram b) (v : Irq) :
    enterInterrupt v s = .next (s.entered v s.regs
      ((s.mem.write .sram a (lowByte s.pc)).write .sram b (highByte s.pc))) := by
  rw [enterInterrupt_eq, memWrite_sram (s := s.enterHandler) hfirst, andThen_next,
    memWrite_sram ((dataPlace_spLowered h ?_ ?_).trans hsecond)] <;> rfl

/-- Both bytes go to general registers. -/
theorem enterInterrupt_reg (h : s.Inv) {j k : Reg} (hfirst : dataPlace s.launch.device s.sp = .reg j)
    (hsecond : dataPlace s.launch.device s.spBelow = .reg k) (v : Irq) :
    enterInterrupt v s = .next (s.entered v ((s.setReg j (lowByte s.pc)).setReg k (highByte s.pc)).regs s.mem) := by
  rw [enterInterrupt_eq, memWrite_reg (s := s.enterHandler) hfirst, andThen_next,
    memWrite_reg ((dataPlace_spLowered h ?_ ?_).trans hsecond)] <;> rfl

/-- Two less, modulo a number, is one less and then again one less. -/
theorem pred_pred_mod {a m : Nat} (hm : 0 < m) : ((a + m - 1) % m + m - 1) % m = (a + 2 * m - 2) % m := by
  rw [Nat.add_sub_assoc hm, Nat.mod_add_mod]
  congr 1
  omega

theorem State.spLowered_spLowered_toNat (h : s.Inv) :
    s.spLowered.spLowered.sp.toNat =
      (s.sp.toNat + 2 * 2 ^ s.launch.device.spBits - 2) % 2 ^ s.launch.device.spBits := by
  have hsecond : s.spLowered.spLowered.sp.toNat =
      (s.spLowered.sp.toNat + 2 ^ s.launch.device.spBits - 1) % 2 ^ s.launch.device.spBits :=
    State.spLowered_toNat h.spLowered
  rw [hsecond, State.spLowered_toNat h, pred_pred_mod (Nat.two_pow_pos _)]

/-- One bit of the request flags or the enable bits is written. -/
theorem getLsbD_setIrqBit (b : BitVec 22) {n i : Nat} (x : Bool) (hi : i < 22) :
    (setIrqBit b n x).getLsbD i = if i = n then x else b.getLsbD i := by
  have hone : (1#22 <<< n).getLsbD i = decide (i = n) := by
    rw [← BitVec.twoPow_eq, BitVec.getLsbD_twoPow]
    rcases eq_or_ne n i with rfl | hn
    · simp [hi]
    · simp [hn, hn.symm]
  cases x with
  | false =>
    rw [setIrqBit, if_neg (by decide), BitVec.getLsbD_and, BitVec.getLsbD_not, hone]
    by_cases hn : i = n <;> simp [hn, hi]
  | true =>
    rw [setIrqBit, if_pos rfl, BitVec.getLsbD_or, hone]
    by_cases hn : i = n <;> simp [hn]

/-- Of the request flags the entry clears its own, where it clears one (R226). -/
theorem getLsbD_irqFlags_atVector (s : State) (v : Irq) {n : Nat} (hn : n < 22) :
    (s.atVector v).irqFlags.getLsbD n =
      (s.irqFlags.getLsbD n && !(v.clearedByEntry && decide (n = v.number))) := by
  rw [State.atVector_irqFlags]
  cases v.clearedByEntry with
  | false => simp
  | true =>
    rw [if_pos rfl, getLsbD_setIrqBit _ _ hn]
    by_cases hv : n = v.number <;> simp [hv]

/-- The handler address, modulo 2^PC_BITS (R221). -/
theorem toNat_pc_atVector (s : State) (v : Irq) (hbits : s.launch.device.pcBits ≤ 16) :
    (s.atVector v).pc.toNat = s.launch.device.vectorStride * (v.number - 1) % 2 ^ s.launch.device.pcBits := by
  have hlt : vectorAddr s.launch.device v.number % 2 ^ s.launch.device.pcBits < 2 ^ 16 :=
    Nat.lt_of_lt_of_le (Nat.mod_lt _ (Nat.two_pow_pos _)) (Nat.pow_le_pow_right (by decide) hbits)
  rw [State.atVector_pc, BitVec.toNat_ofNat, Nat.mod_eq_of_lt hlt, vectorAddr]

theorem Window.interrupted_ne_open (w : Window) : w.interrupted ≠ .open := by
  cases w <;> decide

/-- All of the entry's frame but the two bytes. -/
theorem entered_leaves (h : s.Inv) (v : Irq) (regs : Vector Byte 32) (mem : Memory) :
    EntryLeaves v s (s.entered v regs mem) := by
  obtain ⟨hbits, _⟩ := Device.wf_bounds h.device
  have hclear : (s.entered v regs mem).flag flagI = false := State.flag_setFlag_same s flagI false
  have hsp : (s.entered v regs mem).sp.toNat =
      (s.sp.toNat + 2 * 2 ^ s.launch.device.spBits - 2) % 2 ^ s.launch.device.spBits :=
    State.spLowered_spLowered_toNat (s := s) h
  exact ⟨hclear, fun _ hc => State.flag_setFlag_other s false hc, hsp, rfl, toNat_pc_atVector _ v hbits, rfl, rfl, rfl,
    fun _ hn => getLsbD_irqFlags_atVector _ v hn, rfl, rfl, rfl, rfl, rfl, rfl, ⟨rfl, rfl, rfl, rfl, rfl⟩,
    ⟨rfl, rfl, rfl⟩, rfl, Window.interrupted_ne_open _, Window.interrupted_ne_open _, takeable_of_flagI_clear hclear⟩

/-- Two different places of SRAM take the two bytes. -/
theorem sram_places_ne (h : s.Inv) (hpos : 0 < s.launch.device.spBits) {a b : Nat}
    (hfirst : dataPlace s.launch.device s.sp = .sram a) (hsecond : dataPlace s.launch.device s.spBelow = .sram b) :
    a ≠ b := by
  obtain ⟨rfl, _⟩ := dataPlace_sram hfirst
  obtain ⟨rfl, _⟩ := dataPlace_sram hsecond
  exact fun e => State.spBelow_ne_sp h hpos (BitVec.eq_of_toNat_eq e.symm)

/-- Two different registers take the two bytes. -/
theorem reg_places_ne (h : s.Inv) (hpos : 0 < s.launch.device.spBits) {j k : Reg}
    (hfirst : dataPlace s.launch.device s.sp = .reg j) (hsecond : dataPlace s.launch.device s.spBelow = .reg k) :
    j ≠ k := by
  obtain ⟨_, hj, _⟩ := dataPlace_reg hfirst
  obtain ⟨_, hk, _⟩ := dataPlace_reg hsecond
  exact fun e => State.spBelow_ne_sp h hpos (by rw [hk, hj, e])

/-- The return address in two bytes of SRAM. -/
theorem read_returnAddress {m : Memory} {a b : Nat} (lo hi : Byte) (hab : a ≠ b) :
    ((m.write .sram a lo).write .sram b hi).read .sram a = some lo ∧
      ((m.write .sram a lo).write .sram b hi).read .sram b = some hi := by
  refine ⟨?_, Memory.read_write_same _ _ b hi⟩
  rw [Memory.read_write_other _ hi fun h => hab h.2.symm, Memory.read_write_same]

/-! ## Entry that stops (R57, R64, R241) -/

theorem enterInterrupt_nothing {a : Nat} (hfirst : dataPlace s.launch.device s.sp = .nothing a) (v : Irq) :
    enterInterrupt v s = .refused (.unimplementedDataAddress a) := by
  rw [enterInterrupt_eq, memWrite_nothing (s := s.enterHandler) hfirst, andThen_refused]

/-- Nothing is implemented below an SP in SRAM or the registers. -/
theorem enterInterrupt_nothing_below (h : s.Inv) {a : Nat} (hnothing : ∀ b, dataPlace s.launch.device s.sp ≠ .nothing b)
    (hio : ∀ b, dataPlace s.launch.device s.sp ≠ .io b) (hsecond : dataPlace s.launch.device s.spBelow = .nothing a)
    (v : Irq) : enterInterrupt v s = .refused (.unimplementedDataAddress a) := by
  have hstop {t : State} (hsp : t.sp = s.sp) (hlaunch : t.launch = s.launch) (w : Byte) :
      memWrite t.spLowered t.spLowered.sp w = .refused (.unimplementedDataAddress a) :=
    memWrite_nothing ((dataPlace_spLowered h hsp hlaunch).trans hsecond) w
  rw [enterInterrupt_eq]
  cases hfirst : dataPlace s.launch.device s.sp with
  | reg j => rw [memWrite_reg (s := s.enterHandler) hfirst, andThen_next, hstop, andThen_refused] <;> rfl
  | sram b => rw [memWrite_sram (s := s.enterHandler) hfirst, andThen_next, hstop, andThen_refused] <;> rfl
  | io b => exact absurd hfirst (hio b)
  | nothing b => exact absurd hfirst (hnothing b)

/-- A window that was open is stale before the first push (log 16), so that a push that sets EEWE is a misuse. -/
theorem enterInterrupt_eewe {b : IoAddr} (hfirst : dataPlace s.launch.device s.sp = .io b)
    (hreg : ioReg s.launch b = .eecr) (hbit : s.pc.getLsbD 1 = true) (hidle : s.eeWrite = none)
    (hwindow : s.eeWindow ≠ .closed) (v : Irq) : enterInterrupt v s = .fault .eepromMisuse := by
  have hstale : s.enterHandler.eeWindow = .stale := by
    rw [State.enterHandler_eeWindow]
    cases hw : s.eeWindow with
    | closed => exact absurd hw hwindow
    | _ => rfl
  have hwe : (lowByte s.pc).getLsbD 1 = true := (getLsbD_lowByte s.pc (by decide)).trans hbit
  rw [enterInterrupt_eq, memWrite_io (s := s.enterHandler) hfirst, ioWrite_of_eecr (s := s.enterHandler) hreg,
    eecrWrite_misuse (s := s.enterHandler) (.inr (.inr (.inr ⟨hwe, hidle, hstale⟩))), andThen_fault]

/-! ## Turns of the interrupt agent (R225; log 15) -/

theorem step_of_takeable {v : Irq} (hend : s.atEnd = false) (hagenda : s.agenda = []) (hv : s.takeable = some v) :
    step s = enterInterrupt v s := by
  simp only [step, hend, Bool.false_eq_true, if_false, hagenda, boundary, hv]

theorem step_of_interrupt {rest : List Turn} (hend : s.atEnd = false) (hagenda : s.agenda = .interrupt :: rest) :
    step s = deliver { s with agenda := rest } := by
  simp only [step, hend, Bool.false_eq_true, if_false, hagenda]

theorem deliver_of_takeable {v : Irq} (hv : s.takeable = some v) : deliver s = enterInterrupt v s := by
  simp only [deliver, hv]

theorem deliver_of_untaken (hnone : s.takeable = none) : deliver s = .next s := by
  simp only [deliver, hnone]

/-! ## Return (R232) -/

/-- A byte popped from SRAM, at the SP that a push has left one lower. -/
theorem popByte_sram (h : s.Inv) {n : Word} {b : Nat} {v : Byte} (hn : n.toNat < 2 ^ s.launch.device.spBits)
    (hsp : s.sp.toNat = (n.toNat + 2 ^ s.launch.device.spBits - 1) % 2 ^ s.launch.device.spBits)
    (hplace : dataPlace s.launch.device n = .sram b) (hread : s.mem.read .sram b = some v) :
    popByte s = .next (v, { s with sp := n }) := by
  have hback : BitVec.ofNat 16 ((s.sp.toNat + 1) % 2 ^ s.launch.device.spBits) = n := by
    rw [succ_mod_of_pred_mod hn hsp, BitVec.ofNat_toNat, BitVec.setWidth_eq]
  simp only [popByte, setSp_succ h, hback]
  exact memRead_sram hplace hread

/-- The return from an interrupt whose return address lies in SRAM, where its entry put it. -/
theorem returnFromInterrupt_sram (h : s.Inv) {n m : Word} {a b : Nat} {lo hi : Byte}
    (hm : m.toNat < 2 ^ s.launch.device.spBits) (hn : n.toNat < 2 ^ s.launch.device.spBits)
    (hsp : s.sp.toNat = (m.toNat + 2 ^ s.launch.device.spBits - 1) % 2 ^ s.launch.device.spBits)
    (hmn : m.toNat = (n.toNat + 2 ^ s.launch.device.spBits - 1) % 2 ^ s.launch.device.spBits)
    (hplacem : dataPlace s.launch.device m = .sram b) (hplacen : dataPlace s.launch.device n = .sram a)
    (hhi : s.mem.read .sram b = some hi) (hlo : s.mem.read .sram a = some lo) :
    returnFromInterrupt s =
      .next { s.setFlag flagI true with
        sp := n, pc := BitVec.ofNat 16 ((joinBytes hi lo).toNat % 2 ^ s.launch.device.pcBits), pcWrapped := false,
        holdoff := true } := by
  have hraised : State.Inv { s with sp := m } := { h with sp := hm }
  rw [returnFromInterrupt, popByte_sram h hm hsp hplacem hhi, andThen_next]
  simp only [popByte_sram hraised hn hmn hplacen hlo, andThen_next]
  rfl

end

end Sys2Proof.Machine
end

section
/-! The obligations about the entry of an interrupt and the return from one. -/

namespace Sys2Proof.Proofs

open Machine

/-- Settles O51: the entry is two stores, and its answer is read off the places that they reach. -/
theorem interruptEntry : Obligations.InterruptEntry := by
  unfold Obligations.InterruptEntry
  refine ⟨fun s v => step_of_takeable, fun s rest hend hagenda => ⟨fun v hv => ?_, fun hnone => ?_⟩,
    fun s v a b h hpos hfirst hsecond => ?_, fun s v j k h hpos hfirst hsecond => ?_,
    fun s v a hfirst => enterInterrupt_nothing hfirst v,
    fun s v a h hnothing hio hsecond => enterInterrupt_nothing_below h hnothing hio hsecond v,
    fun s v b hfirst hreg hbit hidle hwindow => enterInterrupt_eewe hfirst hreg hbit hidle hwindow v,
    enterInterrupt_eq⟩
  · exact (step_of_interrupt hend hagenda).trans (deliver_of_takeable hv)
  · exact (step_of_interrupt hend hagenda).trans (deliver_of_untaken hnone)
  · obtain ⟨hlo, hhi⟩ := read_returnAddress (m := s.mem) (lowByte s.pc) (highByte s.pc)
      (sram_places_ne h hpos hfirst hsecond)
    have hbefore : SameMemBut .sram (fun c => c = a ∨ c = b) s s := fun _ _ _ => rfl
    have hone : SameMemBut .sram (fun c => c = a ∨ c = b) s { s with mem := s.mem.write .sram a (lowByte s.pc) } :=
      hbefore.write (.inl rfl) rfl
    exact ⟨_, enterInterrupt_sram h hfirst hsecond v, hlo, hhi, hone.write (.inr rfl) rfl, fun _ _ => rfl,
      entered_leaves h v _ _⟩
  · have hj := State.reg_setReg_other (s.setReg j (lowByte s.pc)) (highByte s.pc)
      (reg_places_ne h hpos hfirst hsecond)
    rw [State.reg_setReg_same] at hj
    have hbefore : SameRegsBut [j, k] s s := fun _ _ => rfl
    exact ⟨_, enterInterrupt_reg h hfirst hsecond v, hj, State.reg_setReg_same _ k _, fun _ _ => rfl,
      (hbefore.setReg (by simp) _).setReg (by simp) _, entered_leaves h v _ _⟩

/-- Settles O52: the return pops the two bytes that the entry pushed, at the same two addresses. -/
theorem returnUndoesEntry : Obligations.ReturnUndoesEntry := by
  unfold Obligations.ReturnUndoesEntry
  intro s v a b t h hpos hfirst hsecond hentry
  have hsram := enterInterrupt_sram h hfirst hsecond v
  obtain ⟨hinv, _⟩ := enterInterrupt_inv h hsram
  obtain rfl := Host.Outcome.next.inj (hsram.symm.trans hentry)
  obtain ⟨hlo, hhi⟩ := read_returnAddress (m := s.mem) (lowByte s.pc) (highByte s.pc)
    (sram_places_ne h hpos hfirst hsecond)
  have hbelow := h.spLowered.sp
  have hfirstPush := State.spLowered_toNat h
  have hsecondPush := State.spLowered_toNat h.spLowered
  rw [State.spLowered_sp h] at hbelow hfirstPush hsecondPush
  have hpc : BitVec.ofNat 16 ((joinBytes (highByte s.pc) (lowByte s.pc)).toNat % 2 ^ s.launch.device.pcBits) =
      s.pc := by
    rw [joinBytes_highByte_lowByte, Nat.mod_eq_of_lt h.pc, BitVec.ofNat_toNat, BitVec.setWidth_eq]
  exact ⟨_, returnFromInterrupt_sram hinv hbelow h.sp hsecondPush hfirstPush hsecond hfirst hhi hlo, hpc, rfl,
    State.flag_setFlag_same _ flagI true, rfl,
    fun c hc => (State.flag_setFlag_other _ true hc).trans (State.flag_setFlag_other s false hc), fun _ _ => rfl⟩

end Sys2Proof.Proofs
end

section
/-! SUPPORT. A reset in mid-run: when a cause resets the chip, what memory it leaves alone and what the registers hold
after it (70_reset_and_hazards.md R260 to R263). -/

namespace Sys2Proof.Machine

open Config

variable {s : State} {c : ResetCause}

/-- Every cause but the watchdog resets; the watchdog when it is enabled and has counted (R213, R263; log 24). -/
theorem State.resets_iff :
    s.resets c = true ↔ (c = .watchdog → s.launch.watchdogEnabled = true ∧ 0 < s.watchdog) := by
  cases c <;> simp [State.resets]

/-- A reset is due (log 15). -/
theorem step_of_reset {rest : List Turn} (hend : s.atEnd = false) (hagenda : s.agenda = .reset c :: rest) :
    step s = .next (takeReset c { s with agenda := rest }) := by
  simp only [step, hend, Bool.false_eq_true, if_false, hagenda]

/-! ## Memory -/

/-- Every byte of an emptied memory reads as one that is not listed. -/
theorem Memory.read_setCells_nil (m : Memory) (sp : Space) (a : Nat) : (m.setCells sp []).read sp a = sp.fill := by
  rw [Memory.read, Memory.cells_setCells, if_pos rfl, lookupCell]

/-- A byte that no EEPROM write and no page operation in progress was writing is as it was before the reset, or as the
loss of power leaves it (R261, R262). -/
theorem read_memAfterReset {sp : Space} {a : Nat} (hbuffer : sp ≠ .pageBuffer)
    (hwrite : sp = .eeprom → ∀ w, s.eeWrite = some w → a ≠ w.addr)
    (hjob : sp = .flash → ∀ j, s.spmJob = some j → ¬(j.base ≤ a ∧ a < j.base + pageBytes s.launch.device)) :
    (memAfterReset c s).read sp a = (if c = .powerOn then s.mem.setCells .sram [] else s.mem).read sp a := by
  have heeprom : ∀ m : Memory, (match s.eeWrite with
      | some w => m.write .eeprom w.addr (interruptedByte s.draws)
      | none => m).read sp a = m.read sp a := by
    intro m
    split
    · next w hw => exact m.read_write_other _ fun ⟨hsp, ha⟩ => hwrite hsp w hw ha.symm
    · rfl
  rw [memAfterReset, Memory.read_setCells_other _ _ hbuffer]
  split
  · next base hj =>
    rw [Memory.read_writeRun, if_neg fun ⟨hsp, hin⟩ => hjob hsp _ hj hin]
    exact heeprom _
  · next base hj =>
    rw [Memory.read_writeRun, if_neg fun ⟨hsp, hin⟩ => hjob hsp _ hj hin]
    exact heeprom _
  · exact heeprom _

/-- The loss of power reaches SRAM only (R261). -/
theorem read_afterPower (m : Memory) {sp : Space} (h : sp = .sram → c ≠ .powerOn) (a : Nat) :
    (if c = .powerOn then m.setCells .sram [] else m).read sp a = m.read sp a := by
  split
  · next hc => exact m.read_setCells_other _ (fun hsp => h hsp hc) a
  · rfl

theorem memAfterReset_flash {a : Nat}
    (hjob : ∀ j, s.spmJob = some j → ¬(j.base ≤ a ∧ a < j.base + pageBytes s.launch.device)) :
    (memAfterReset c s).read .flash a = s.mem.read .flash a :=
  (read_memAfterReset (sp := .flash) nofun nofun fun _ => hjob).trans (read_afterPower (sp := .flash) _ nofun a)

theorem memAfterReset_eeprom {a : Nat} (hwrite : ∀ w, s.eeWrite = some w → a ≠ w.addr) :
    (memAfterReset c s).read .eeprom a = s.mem.read .eeprom a :=
  (read_memAfterReset (sp := .eeprom) nofun (fun _ => hwrite) nofun).trans (read_afterPower (sp := .eeprom) _ nofun a)

theorem memAfterReset_sram (h : c ≠ .powerOn) (a : Nat) :
    (memAfterReset c s).read .sram a = s.mem.read .sram a :=
  (read_memAfterReset (sp := .sram) nofun nofun nofun).trans (read_afterPower _ (fun _ => h) a)

theorem memAfterReset_sram_powerOn (a : Nat) : (memAfterReset .powerOn s).read .sram a = none := by
  rw [read_memAfterReset (sp := .sram) nofun nofun nofun, if_pos rfl, Memory.read_setCells_nil, Space.fill]

/-! ## Registers -/

theorem takeReset_mem (hc : s.resets c = true) : (takeReset c s).mem = memAfterReset c s := by
  rw [takeReset, if_pos hc]

/-- Vector 1 is word address 0, whatever the stride (R221). -/
theorem vectorAddr_one (d : Device) : vectorAddr d 1 = 0 := Nat.mul_zero _

/-- What R41 and R261 give; that no hold-off is in force is log 21. -/
theorem takeReset_registers (hc : s.resets c = true) :
    (takeReset c s).pc = 0 ∧ (takeReset c s).sreg = 0 ∧ (takeReset c s).rampz = 0 ∧ (takeReset c s).eerie = false ∧
      (takeReset c s).eeWindow = .closed ∧ (takeReset c s).irqFlags = 0 ∧ (takeReset c s).asleep = false ∧
      (takeReset c s).holdoff = false ∧ (takeReset c s).launch = s.launch := by
  rw [takeReset, if_pos hc]
  exact ⟨rfl, rfl, rfl, rfl, rfl, rfl, rfl, rfl, rfl⟩

end Sys2Proof.Machine
end

section
/-! The obligation about a reset in mid-run. -/

namespace Sys2Proof.Proofs

open Machine

/-- Settles O60: the registers are those of the state after reset, and of memory only what an operation in progress was
writing is changed, besides SRAM at power-on. -/
theorem resetInMidRun : Obligations.ResetInMidRun := by
  unfold Obligations.ResetInMidRun
  intro s c rest hend hagenda hwatchdog
  have hc : State.resets { s with agenda := rest } c = true := State.resets_iff.2 hwatchdog
  obtain ⟨hpc, hsreg, hrampz, heerie, hwindow, hflags, hasleep, hholdoff, hlaunch⟩ := takeReset_registers hc
  refine ⟨_, step_of_reset hend hagenda, ?_, hsreg, hrampz, heerie, hwindow, hflags, hasleep, hholdoff, hlaunch, ?_⟩
  · rw [hpc, vectorAddr_one]
    rfl
  · rw [takeReset_mem hc]
    refine ⟨fun hidle a => memAfterReset_flash fun j hj => ?_,
      fun base hpage a ha => memAfterReset_flash fun j hj => ?_,
      fun a hwrite => memAfterReset_eeprom hwrite, fun hpower a => memAfterReset_sram hpower a, ?_⟩
    · cases hidle.symm.trans hj
    · rcases hpage with hpage | hpage <;> cases hpage.symm.trans hj <;> exact ha
    · rintro rfl a
      exact memAfterReset_sram_powerOn a

end Sys2Proof.Proofs
end
